-- ==== Sys2Proof/Word.lean ====
section
/-! DEFINITION. The words of the device: 32-bit register words, bytes, lane masks (R6, R70, R168). -/

namespace Sys2Proof

/-- A 32-bit register word (R70). -/
abbrev Word := BitVec 32

/-- A byte of memory (R6). -/
abbrev Byte := BitVec 8

/-- One bit for each of the 32 lanes of a fibre (R34, R52): bit L is lane L. -/
abbrev Mask := BitVec 32

/-- A finite map with a default: keys strictly rising, no entry holding the default. -/
abbrev SMap (α : Type) := List (Nat × α)

/-- The number of lanes of a group, `%gw` (R34, R80). -/
def groupWidth : Nat := 32

end Sys2Proof
end

