-- ==== Sys2Proof/Config.lean ====
section
/-! DEFINITION. What the manual leaves to the device. Every value here is free: it has no body, so nothing can
be proved of it. Each is named in a row of notes/assumptions. -/

namespace Sys2Proof

/-- The free choice of the device where the manual fixes no order and no value (R45, R49, R142, R347): applied to
the step counter and to a number that names the choice (log 1, log 7). -/
opaque Config.choose : Nat → Nat → Nat

/-- The port that a routing table of firmware core 5 gives an ordered flow (R362): the table by the count of its reloads, the
destination package, the flow key (log 76). -/
opaque Config.route : Nat → Nat → Nat → Nat

/-- The conditioned noise source of a core (R240): core, draw, lane position (log 6). -/
opaque Config.noise : Nat → Nat → Nat → BitVec 32

/-- Which of its two permitted values a faithful FP32 function delivers (R231): function code and input bits, whatever
the rounding mode. True is the upper one (log 5). -/
opaque Config.faithfulUp : Nat → BitVec 32 → Bool

/-- The signature over an attestation report, made with a key that never leaves core 0 (R404; log 13). -/
opaque Config.signature : List (BitVec 8) → BitVec 3072

/-- The firmware image that a core is delivered with (R403; log 13). -/
opaque Config.image : Nat → List (BitVec 8)

/-- Whether the image of a core verifies against the fused key (R403, R407; log 13). -/
opaque Config.verifies : Nat → List (BitVec 8) → Bool

/-- The version that an image carries (R397; log 13). -/
opaque Config.version : List (BitVec 8) → BitVec 32

/-- SHA-256 (R403): the measurement register and the hash of an image are made with it (log 13). -/
opaque Config.sha256 : List (BitVec 8) → BitVec 256

end Sys2Proof
end

