-- ==== Sys2Proof/Syntax.lean ====
section
/-! DEFINITION. The syntax: the fields of an instruction word (R168, R170) and ONE inductive with a constructor
for each row of the opcode table: the instructions, and the steps of the device that are no words. -/

namespace Sys2Proof

/-- The operand classes, codes 0 to 7 in this order (R170). -/
inductive Cls where
  | none | vec | uni | pred | tile | acc | spec | imm
deriving DecidableEq, Repr

/-- An operand field of 22 bits (R170). When the class is `imm`, the other fields together are the immediate. -/
structure Operand where
  cls : Cls
  num : BitVec 8
  pat : BitVec 3
  arg : BitVec 6
  neg : Bool
  abs : Bool
deriving DecidableEq, Repr

/-- The fields of an instruction word but for OP (R168). -/
structure Enc where
  mod : BitVec 6
  ga : BitVec 7
  gb : BitVec 7
  gc : Bool
  sw : Bool
  d : Operand
  a : Operand
  b : Operand
  c : Operand
  e : Operand
  ch : BitVec 3
  st : BitVec 3
  sc : BitVec 3
  rm : BitVec 3
  ext : BitVec 4
  rsv : BitVec 2
deriving DecidableEq, Repr

/-- A Zunos packet as it stands on the wire: header flit and payload (R360). -/
structure Packet where
  port : Nat
  header : BitVec 512
  payload : List Byte
deriving DecidableEq, Repr

/-- The units of protected storage that an error can strike (R459): the code; the place (codes 1 to 6 a team, a line of an L1 its core plus
2^32 times one more than the bank of its home slice, 7 a core, 8 a die or 24 plus a tower, 9 to 11 a bank, 12 a bank plus 2^16 times
a row); the unit (1 the pool register times 32 plus the lane, 2 and 3 the fibre times 256 plus the number, 4 to 8 counted in units from the start, lines and 9 to 12 the storage key). -/
structure StorageUnit where
  code : Nat
  place : Nat
  unit : Nat
deriving DecidableEq, Repr

/-- The atomic operations of an application core. -/
inductive AmoOp where
  | swap | add | xor | and | or | min | max | minu | maxu
deriving DecidableEq, Repr

/-- What an application core does through the aperture (R402). -/
inductive AppAccess where
  /-- a load of so many bytes at an aperture offset -/
  | load (off len : Nat)
  /-- a store -/
  | store (off : Nat) (data : List Byte)
  /-- an AMO on a word of 4 or 8 bytes, with the acquire and release bits -/
  | amo (op : AmoOp) (off len : Nat) (data : BitVec 64) (aq rl : Bool)
  /-- a fence with its predecessor and successor sets (read, write) -/
  | fence (pr pw sr sw : Bool)
deriving DecidableEq, Repr

/-- Every row of the opcode table. The rows from BRA to HALT are instructions and carry the word's fields;
ILLEGAL_INSTRUCTION carries a whole word; the others are steps of the device, with what they act on. -/
inductive Instr where
  /-- BRA (R199): Moves each active lane to the branch target, or traps when a target lies outside the code range. -/
  | bra (e : Enc)
  /-- BRX (R199): Moves each active lane to the target held in its register operand. -/
  | brx (e : Enc)
  /-- CALL (R199): Writes IP + 1 to the link register and moves each active lane to the target. -/
  | call (e : Enc)
  /-- CALLI (R200): Checks each target's entry nop and register budget, then links and moves the active lanes. -/
  | calli (e : Enc)
  /-- RET (R199): Moves each active lane to the IP held in its link register. -/
  | ret (e : Enc)
  /-- EXIT (R54): Ends each active lane, and ends the group when its last live lane exits. -/
  | exit (e : Enc)
  /-- YIELD (R201): Advances the active lanes and passes the slot to another Ready fibre. -/
  | yield (e : Enc)
  /-- NOP (R201): Advances the active lanes to IP + 1 and does nothing else. -/
  | nop (e : Enc)
  /-- NOP_ENTRY (R190): Entry nop that declares the register counts of a call target and executes as nop. -/
  | nopEntry (e : Enc)
  /-- NAP (R202): Parks the fibre for the given number of cycles. -/
  | nap (e : Enc)
  /-- SGW (R203): Sets the sub-group width used by later issue steps. -/
  | sgw (e : Enc)
  /-- IPGET (R204): Writes IP plus a signed offset to the destination. -/
  | ipget (e : Enc)
  /-- MOV (R206): Copies the source to the destination. -/
  | mov (e : Enc)
  /-- MOVL (R206): Writes a 32-bit literal, sign-extended for .i64, to the destination. -/
  | movl (e : Enc)
  /-- ADD (R206): Writes the sum modulo 2^n per element. -/
  | add (e : Enc)
  /-- SUB (R206): Writes the difference modulo 2^n per element. -/
  | sub (e : Enc)
  /-- ADDS (R206): Writes the saturated sum per element. -/
  | adds (e : Enc)
  /-- SUBS (R206): Writes the saturated difference per element. -/
  | subs (e : Enc)
  /-- ADDC (R207): Adds with a predicate carry in and writes the carry out to a predicate. -/
  | addc (e : Enc)
  /-- SUBB (R207): Subtracts with a predicate borrow in and writes the borrow out to a predicate. -/
  | subb (e : Enc)
  /-- MUL (R206): Writes the low n bits of the product per element. -/
  | mul (e : Enc)
  /-- MULHI (R206): Writes the high n bits of the exact product per element. -/
  | mulhi (e : Enc)
  /-- MAD (R206): Writes a x b + c modulo 2^n per element. -/
  | mad (e : Enc)
  /-- MADW (R208): Writes a 64-bit a x b + c to an aligned register pair. -/
  | madw (e : Enc)
  /-- DIV (R100): Writes the integer quotient, with the defined results for division by zero, at variable latency. -/
  | div (e : Enc)
  /-- REM (R100): Writes the integer remainder, with the defined results for division by zero, at variable latency. -/
  | rem (e : Enc)
  /-- MIN (R206): Writes the smaller element. -/
  | min (e : Enc)
  /-- MAX (R206): Writes the larger element. -/
  | max (e : Enc)
  /-- ABS (R213): Writes the absolute value, saturated with .sat. -/
  | abs (e : Enc)
  /-- NEG (R213): Writes the negation, saturated with .sat. -/
  | neg (e : Enc)
  /-- AND (R206): Writes the bitwise AND. -/
  | and (e : Enc)
  /-- OR (R206): Writes the bitwise OR. -/
  | or (e : Enc)
  /-- XOR (R206): Writes the bitwise XOR. -/
  | xor (e : Enc)
  /-- ANDN (R206): Writes a AND NOT b. -/
  | andn (e : Enc)
  /-- NOT (R206): Writes the bitwise complement. -/
  | not (e : Enc)
  /-- SHL (R209): Shifts left, giving 0 for counts of n or more. -/
  | shl (e : Enc)
  /-- SHR (R209): Shifts right logically, giving 0 for counts of n or more. -/
  | shr (e : Enc)
  /-- SAR (R209): Shifts right arithmetically, with the count saturated at n − 1. -/
  | sar (e : Enc)
  /-- DSH (R209): Shifts a 64-bit register pair by a signed count saturated at 32 and writes 32 bits. -/
  | dsh (e : Enc)
  /-- ROT (R209): Rotates left by the count modulo n. -/
  | rot (e : Enc)
  /-- BFE (R210): Extracts a bit field and sign-extends or zero-extends it. -/
  | bfe (e : Enc)
  /-- BFI (R210): Inserts a bit field into a base value. -/
  | bfi (e : Enc)
  /-- POPC (R211): Writes the number of one bits. -/
  | popc (e : Enc)
  /-- CLZ (R211): Writes the number of leading zero bits. -/
  | clz (e : Enc)
  /-- CTZ (R211): Writes the number of trailing zero bits. -/
  | ctz (e : Enc)
  /-- BREV (R211): Reverses all the bits of the value. -/
  | brev (e : Enc)
  /-- BSEL (R211): Forms each result byte from the source bytes under a selector byte. -/
  | bsel (e : Enc)
  /-- SAD (R212): Adds the sum of absolute element differences to c. -/
  | sad (e : Enc)
  /-- CMP (R212): Writes an integer comparison to a predicate. -/
  | cmp (e : Enc)
  /-- CSEL (R212): Selects a or b per lane by a predicate. -/
  | csel (e : Enc)
  /-- PAND (R214): Writes the AND of two predicates. -/
  | pand (e : Enc)
  /-- POR (R214): Writes the OR of two predicates. -/
  | por (e : Enc)
  /-- PXOR (R214): Writes the XOR of two predicates. -/
  | pxor (e : Enc)
  /-- PNOT (R214): Writes the complement of a predicate. -/
  | pnot (e : Enc)
  /-- PSET_NE (R214): Sets a predicate where the source is nonzero. -/
  | psetNe (e : Enc)
  /-- PSET_MASK (R214): Sets a predicate in lane L from bit L of the source. -/
  | psetMask (e : Enc)
  /-- PGET (R215): Writes the 32 stored bits of a predicate as one word. -/
  | pget (e : Enc)
  /-- VOTE_ANY (R217): Writes the OR of a predicate over the member lanes. -/
  | voteAny (e : Enc)
  /-- VOTE_ALL (R217): Writes the AND of a predicate over the member lanes. -/
  | voteAll (e : Enc)
  /-- VOTE_BALL (R217): Writes a ballot mask of a predicate over the member lanes. -/
  | voteBall (e : Enc)
  /-- VOTE_EQ (R217): Writes whether a predicate is equal in all member lanes. -/
  | voteEq (e : Enc)
  /-- SHFL (R219): Moves a value from a source lane of the sub-group and writes validity. -/
  | shfl (e : Enc)
  /-- LRED (R220): Reduces values over the member lanes. -/
  | lred (e : Enc)
  /-- LSCAN (R220): Writes an inclusive or exclusive scan over the member lanes. -/
  | lscan (e : Enc)
  /-- MATCH (R217): Writes the equal-value mask, rank or count among the member lanes. -/
  | xmatch (e : Enc)
  /-- ELECT (R217): Sets the predicate in the lowest member lane only. -/
  | elect (e : Enc)
  /-- FADD (R225): Floating-point addition rounded once. -/
  | fadd (e : Enc)
  /-- FSUB (R225): Floating-point subtraction rounded once. -/
  | fsub (e : Enc)
  /-- FMUL (R225): Floating-point multiplication rounded once. -/
  | fmul (e : Enc)
  /-- FFMA (R225): Fused multiply-add with one rounding. -/
  | ffma (e : Enc)
  /-- FMIN (R226): Writes the smaller operand, ignoring a single NaN. -/
  | fmin (e : Enc)
  /-- FMAX (R226): Writes the larger operand, ignoring a single NaN. -/
  | fmax (e : Enc)
  /-- FMINX (R226): Writes the smaller operand, or NaN when either operand is NaN. -/
  | fminx (e : Enc)
  /-- FMAXX (R226): Writes the larger operand, or NaN when either operand is NaN. -/
  | fmaxx (e : Enc)
  /-- FCMP (R227): Writes a floating-point comparison to a predicate. -/
  | fcmp (e : Enc)
  /-- FCLAMP (R228): Clamps a between lo and hi. -/
  | fclamp (e : Enc)
  /-- FRND (R228): Rounds to an integral value in the same format. -/
  | frnd (e : Enc)
  /-- FSCALE (R228): Multiplies by 2^n and rounds. -/
  | fscale (e : Enc)
  /-- FCLASS (R229): Writes a one-hot class mask per element. -/
  | fclass (e : Enc)
  /-- FDOT2 (R230): Writes a two-element dot product plus c to FP32. -/
  | fdot2 (e : Enc)
  /-- FDOT4 (R230): Writes a four-element FP8 dot product plus c to FP32. -/
  | fdot4 (e : Enc)
  /-- FDIV (R225): Floating-point division rounded once, at variable latency. -/
  | fdiv (e : Enc)
  /-- RCP (R231): Correctly rounded reciprocal. -/
  | rcp (e : Enc)
  /-- RSQRT (R231): Faithful reciprocal square root. -/
  | rsqrt (e : Enc)
  /-- SQRT (R231): Correctly rounded square root. -/
  | sqrt (e : Enc)
  /-- EXP2 (R231): Faithful 2^x. -/
  | exp2 (e : Enc)
  /-- LOG2 (R231): Faithful log2 x. -/
  | log2 (e : Enc)
  /-- SIN (R231): Faithful sine with exact argument reduction. -/
  | sin (e : Enc)
  /-- COS (R231): Faithful cosine with exact argument reduction. -/
  | cos (e : Enc)
  /-- TANH (R231): Faithful hyperbolic tangent. -/
  | tanh (e : Enc)
  /-- SIGM (R231): Faithful logistic sigmoid. -/
  | sigm (e : Enc)
  /-- GELU (R231): Faithful GELU. -/
  | gelu (e : Enc)
  /-- SILU (R231): Faithful SiLU. -/
  | silu (e : Enc)
  /-- ERF (R231): Faithful error function. -/
  | erf (e : Enc)
  /-- CVT (R235): Converts a slot of the source into a slot of the destination. -/
  | cvt (e : Enc)
  /-- CVT_SR (R237): Converts FP32 with stochastic rounding from one noise draw. -/
  | cvtSr (e : Enc)
  /-- MXQ (R238): Quantises the active lanes' FP32 values into one MX block and scale. -/
  | mxq (e : Enc)
  /-- MXD (R239): Dequantises one MX element to FP32. -/
  | mxd (e : Enc)
  /-- RAND (R242): Writes one noise-source draw as integers or as FP32 values in [0, 1). -/
  | rand (e : Enc)
  /-- LD (R249): Per-lane global load through a buffer record, all or nothing. -/
  | ld (e : Enc)
  /-- ST (R249): Per-lane global store through a buffer record with byte or bit enables. -/
  | st (e : Enc)
  /-- LDU (R248): One global load for the fibre into uniform registers. -/
  | ldu (e : Enc)
  /-- LDS (R252): Scratchpad load. -/
  | lds (e : Enc)
  /-- STS (R252): Scratchpad store. -/
  | sts (e : Enc)
  /-- LDC (R252): Load from the scratchpad of a cluster rank. -/
  | ldc (e : Enc)
  /-- STC (R252): Store to the scratchpad of a cluster rank. -/
  | stc (e : Enc)
  /-- LDFE (R254): Reads a full scratchpad word and marks it empty, or queues the lane to wait. -/
  | ldfe (e : Enc)
  /-- STFE (R254): Writes an empty scratchpad word and marks it full, or queues the lane to wait. -/
  | stfe (e : Enc)
  /-- FSET_EMPTY (R254): Marks scratchpad words empty and ends any reservation on them. -/
  | fsetEmpty (e : Enc)
  /-- FSET_FULL (R254): Marks scratchpad words full and ends any reservation on them. -/
  | fsetFull (e : Enc)
  /-- CBCFG (R255): Configures a circular buffer. -/
  | cbcfg (e : Enc)
  /-- CBTAKE (R255): Takes the next filled slot, waiting while none is filled. -/
  | cbtake (e : Enc)
  /-- CBTAKE_FILL (R255): Claims the next free slot for filling, waiting while none is free. -/
  | cbtakeFill (e : Enc)
  /-- CBGIVE (R255): Gives back the oldest taken slot once the fibre's scratchpad accesses have performed. -/
  | cbgive (e : Enc)
  /-- CBGIVE_FILL (R255): Marks the oldest claimed slot filled once the fibre's stores have performed. -/
  | cbgiveFill (e : Enc)
  /-- PF_L2 (R256): Prefetches lines into their home slices without faulting. -/
  | pfL2 (e : Enc)
  /-- PF_L1 (R256): Prefetches lines into the core's L1 without faulting. -/
  | pfL1 (e : Enc)
  /-- CINV (R257): Writes back and invalidates the named L1 lines. -/
  | cinv (e : Enc)
  /-- CINV_ALL (R257): Writes back every dirty byte and invalidates the whole L1. -/
  | cinvAll (e : Enc)
  /-- CWB (R257): Writes back the named L1 lines and materialises their open exact sums. -/
  | cwb (e : Enc)
  /-- CWB_ALL (R257): Writes back every dirty byte of the L1. -/
  | cwbAll (e : Enc)
  /-- ATOM (R259): Per-lane global atomic RMW that returns the old value. -/
  | atom (e : Enc)
  /-- ATOMS (R259): Per-lane scratchpad or cluster atomic RMW that returns the old value. -/
  | atoms (e : Enc)
  /-- RED (R259): Per-lane global reduction that returns nothing. -/
  | red (e : Enc)
  /-- REDS (R259): Per-lane scratchpad or cluster reduction that returns nothing. -/
  | reds (e : Enc)
  /-- XADD (R260): Adds each lane's value exactly into the word's exact accumulator at its home slice. -/
  | xadd (e : Enc)
  /-- FENCE_ACQ (R150): Acquire fence at the given scope. -/
  | fenceAcq (e : Enc)
  /-- FENCE_REL (R150): Release fence at the given scope. -/
  | fenceRel (e : Enc)
  /-- FENCE_AR (R150): Acquire-release fence at the given scope. -/
  | fenceAr (e : Enc)
  /-- QFENCE (R164): Holds later operations of the masked queues behind earlier ones. -/
  | qfence (e : Enc)
  /-- BAR (R264): Arrives at a team barrier and waits for the phase to complete. -/
  | bar (e : Enc)
  /-- BARA (R264): Arrives at a team barrier without waiting. -/
  | bara (e : Enc)
  /-- BARW (R264): Waits for the phase of the fibre's latest arrival to complete. -/
  | barw (e : Enc)
  /-- CBAR (R264): Arrives at the cluster barrier and waits. -/
  | cbar (e : Enc)
  /-- FBAR (R264): Arrives at the slot barrier, which orders registers and memory, and waits. -/
  | fbar (e : Enc)
  /-- WADDR (R265): Parks the fibre on a watch of a word until it changes or the timeout lapses. -/
  | waddr (e : Enc)
  /-- FGIVE (R267): Offers a register range to another role's mailbox. -/
  | fgive (e : Enc)
  /-- FCLAIM_SYNC (R268): Claims an offer in the fibre's mailbox without changing its window. -/
  | fclaimSync (e : Enc)
  /-- FCLAIM_SET (R268): Claims an offer in the fibre's mailbox and makes its range the window. -/
  | fclaimSet (e : Enc)
  /-- FWIN (R269): Writes the fibre's window base and size. -/
  | fwin (e : Enc)
  /-- MMA (R280): Queues a matrix multiply-accumulate of a tile by B granules into an accumulator. -/
  | mma (e : Enc)
  /-- LEASE (R282): Requests the matrix engine lease and parks the fibre until the grant. -/
  | lease (e : Enc)
  /-- UNLEASE (R282): Gives up the lease once the queued mma operations have performed. -/
  | unlease (e : Enc)
  /-- AZERO (R284): Zeroes an accumulator, and clears its flags with .clr. -/
  | azero (e : Enc)
  /-- ADRAIN (R285): Drains an accumulator to memory or tiles with requantisation and a status word. -/
  | adrain (e : Enc)
  /-- ASWAP (R284): Exchanges the contents and flags of two accumulators. -/
  | aswap (e : Enc)
  /-- ALD (R287): Loads an accumulator image and its flags from memory. -/
  | ald (e : Enc)
  /-- AST (R287): Stores an accumulator image and its flags to memory. -/
  | ast (e : Enc)
  /-- AFLAG (R284): Writes an accumulator's flags and the restore bit. -/
  | aflag (e : Enc)
  /-- TLD (R276): Loads a tile from 64 rows in memory. -/
  | tld (e : Enc)
  /-- TST (R276): Stores a tile to 64 rows in memory. -/
  | tst (e : Enc)
  /-- TCVT (R277): Requantises tile granules into MX blocks. -/
  | tcvt (e : Enc)
  /-- BLD (R291): Loads B granules into the issuing core's B slices. -/
  | bld (e : Enc)
  /-- BLD_BC (R291): Broadcasts B granules to the same core position of the named layers over the Bellwether channel. -/
  | bldBc (e : Enc)
  /-- CP (R295): Queues a Mule copy of a byte range. -/
  | cp (e : Enc)
  /-- CPG (R296): Queues a Mule gather of rows through an index list. -/
  | cpg (e : Enc)
  /-- CPS (R296): Queues a Mule scatter of rows through an index list. -/
  | cps (e : Enc)
  /-- CP2D (R295): Queues a Mule two-dimensional copy. -/
  | cp2d (e : Enc)
  /-- CPCB (R297): Queues a Mule copy into the next slot of a circular buffer. -/
  | cpcb (e : Enc)
  /-- CPW (R298): Writes the count of unperformed mule operations once it is at most the limit. -/
  | cpw (e : Enc)
  /-- BWST (R300): Queues Bellwether beats that write the stack windows of the tower. -/
  | bwst (e : Enc)
  /-- BWLD (R301): Reads the stack window of the fibre's own layer. -/
  | bwld (e : Enc)
  /-- BWBAR (R302): Writes the team's applied beat count once its earlier beats have been applied. -/
  | bwbar (e : Enc)
  /-- BWSLOT (R302): Writes the number of one of the team's bound slot-table entries. -/
  | bwslot (e : Enc)
  /-- BWSLOT_N (R302): Writes the team's count of bound entries. -/
  | bwslotN (e : Enc)
  /-- AM (R306): Queues an active message to a core's handler queue. -/
  | am (e : Enc)
  /-- PUT (R309): Queues a one-sided copy to a global destination. -/
  | put (e : Enc)
  /-- PUTSIG (R310): Queues a put followed by a release increment of a counter. -/
  | putsig (e : Enc)
  /-- GET (R309): Queues a one-sided copy from a global source. -/
  | get (e : Enc)
  /-- APP (R313): Appends rows to lists by tail RMW and row store per lane. -/
  | app (e : Enc)
  /-- COLL (R315): Zeroes the descriptor's status word and queues a collective. -/
  | coll (e : Enc)
  /-- COLLW (R316): Waits until a collective's status shows DONE and writes the status. -/
  | collw (e : Enc)
  /-- COLLW_TEST (R316): Writes a collective's status word at once. -/
  | collwTest (e : Enc)
  /-- SIGW (R311): Waits with an acquire until a counter reaches the threshold. -/
  | sigw (e : Enc)
  /-- TSPAWN (R319): Enters a task record into the dependence table and returns its sequence number. -/
  | tspawn (e : Enc)
  /-- TCOMMIT (R320): Arrives at the task's commit barrier. -/
  | tcommit (e : Enc)
  /-- NEMIT (R321): Emits each active lane's record to a node. -/
  | nemit (e : Enc)
  /-- RDR (R322): Deposits each active lane's key and payload in the Hen and exits the lane. -/
  | rdr (e : Enc)
  /-- TRAP (R324): Enters the trap with the software cause. -/
  | trap (e : Enc)
  /-- RTT_RESUME (R325): Leaves the handler and moves the trapped lanes past the trapping instruction. -/
  | rttResume (e : Enc)
  /-- RTT_RETRY (R325): Leaves the handler and reissues the trapping instruction. -/
  | rttRetry (e : Enc)
  /-- RTT_END (R325): Ends the fibre from its handler. -/
  | rttEnd (e : Enc)
  /-- SRD (R326): Reads a special register. -/
  | srd (e : Enc)
  /-- SWR (R327): Writes %fpflags, %rmode or %rngmode. -/
  | swr (e : Enc)
  /-- BKPT (R324): Enters the trap with the breakpoint cause. -/
  | bkpt (e : Enc)
  /-- FWCALL_ECHO (R328): Firmware service 0 returns its argument words. -/
  | fwcallEcho (e : Enc)
  /-- FWCALL_FEATURE_VECTOR (R328): Firmware service 1 returns the accepted feature vector. -/
  | fwcallFeatureVector (e : Enc)
  /-- FWCALL_LOG (R328): Firmware service 2 appends 32 bytes to the launch's log ring, or refuses. -/
  | fwcallLog (e : Enc)
  /-- FWCALL_NO_SERVICE (R328): Firmware services 3 to 255 return status 1. -/
  | fwcallNoService (e : Enc)
  /-- HALT (R329): Ends the launch with a code. -/
  | halt (e : Enc)
  /-- ILLEGAL_INSTRUCTION (R183): An unassigned opcode raises the illegal-instruction trap. -/
  | illegalInstruction (w : BitVec 160)
  /-- RESULT_WRITEBACK (R46): A variable-latency result performs its register writes, and a fibre with none left outstanding becomes Ready. -/
  | resultWriteback (r : Nat)
  /-- NAP_EXPIRY (R202): The nap count lapses and the fibre becomes Ready. -/
  | napExpiry (f : Nat)
  /-- WADDR_TIMEOUT (R137): The waddr timeout lapses and the fibre wakes. -/
  | waddrTimeout (f : Nat)
  /-- TRAP_ENTRY (R412): Once the trapping fibre has no results outstanding, it enters its handler, or the trap is undelivered or double. -/
  | trapEntry (f : Nat)
  /-- LOAD_RESPONSE (R250): Returned data is written to each lane's destination once every line has translated. -/
  | loadResponse (op : Nat)
  /-- REQUEST_DISPATCH (R131): A waiting line request obtains a request slot and bank room and leaves the core. -/
  | requestDispatch (r : Nat)
  /-- HOME_SLICE_REQUEST (R115): A request performs at its home slice in arrival order. -/
  | homeSliceRequest (r : Nat)
  /-- PUTSIG_SIGNAL (R364): With every data write acknowledged, the engine sends the counter increment. -/
  | putsigSignal (op : Nat)
  /-- APP_ROW_STORE (R364): A returned tail index triggers the read and store of the appended row. -/
  | appRowStore (op : Nat)
  /-- REMOTE_TIMEOUT (R471): A remote operation without a response after 2^26 cycles fails with dataerr 13. -/
  | remoteTimeout (r : Nat)
  /-- MATRIX_OPERATION (R163): The next operation of a team's matrix queue begins and performs. -/
  | matrixOperation (team : Nat)
  /-- LEASE_GRANT (R353): A free engine is granted to the next waiting team in round-robin order. -/
  | leaseGrant (core : Nat)
  /-- MULE_COPY (R294): The next operation of a team's mule queue begins and performs. -/
  | muleCopy (team : Nat)
  /-- BSLICE_OPERATION (R291): The next bld or bld.bc of a team's bslice queue performs. -/
  | bsliceOperation (team : Nat)
  /-- MSG_OPERATION (R163): The next operation of a team's msg queue begins and performs. -/
  | msgOperation (team : Nat)
  /-- BELLWETHER_BEAT (R159): A bound slot-table entry's turn transmits a beat, and every awake layer and the shadow apply it in key order. -/
  | bellwetherBeat (tower entry : Nat)
  /-- BELLWETHER_CHANNEL_TEST (R473): After 8 failed resends, core 4 pre-empts the tower and removes failing channels. -/
  | bellwetherChannelTest (tower : Nat) (failed : BitVec 8)
  /-- LAYER_SLEEP (R33): The power and health core puts an idle layer to sleep. -/
  | layerSleep (die : Nat)
  /-- LAYER_WAKE (R161): A sleeping layer wakes, copies the shadow at the wake point and applies later writes. -/
  | layerWake (die : Nat)
  /-- COLLECTIVE_START (R368): The Ox reads the descriptor, checks it and sends the member's chunks. -/
  | collectiveStart (team : Nat)
  /-- COLLECTIVE_PACKET (R371): A contribution packet reaches a hop, and the K packets there are combined and forwarded. -/
  | collectivePacket (p : Nat)
  /-- COLLECTIVE_RETURN (R373): A result packet is replicated back through the recording hops and written to DST. -/
  | collectiveReturn (p : Nat)
  /-- COLLECTIVE_COMPLETE (R375): The member writes its status word and optionally signals. -/
  | collectiveComplete (m : Nat)
  /-- COLLECTIVE_TIMEOUT (R474): TMO lapses and the member completes with TO set. -/
  | collectiveTimeout (m : Nat)
  /-- COMBINATION_TIMEOUT (R475): An Ox frees a combination or record that has waited 2^30 cycles. -/
  | combinationTimeout (c : Nat)
  /-- AM_DELIVERY (R307): An active message reaches its core's handler queue, and a handler team starts. -/
  | amDelivery (m : Nat)
  /-- HEN_DEPOSIT (R69): A record enters a Hen and launches full or capacity-forced groups. -/
  | henDeposit (tower : Nat)
  /-- HEN_FLUSH (R69): The depositing launch has no live lane, so every open key launches. -/
  | henFlush (tower launch : Nat)
  /-- NODE_RECORD (R348): A record joins its node's batch and may launch a full batch. -/
  | nodeRecord (launch : Nat)
  /-- GATHER_TIMER_LAPSE (R348): The gather timer lapses and the partial batch launches. -/
  | gatherTimerLapse (launch : Nat)
  /-- TASK_START (R351): A Ready task is placed with its versions, and its binding block is written. -/
  | taskStart (entry : Nat)
  /-- TASK_COMMIT (R352): After the last arrival and the engine queues drain, the task's versions become current. -/
  | taskCommit (team : Nat)
  /-- TEAM_DESCEND (R346): A distributor level draws team blocks and sends each team toward its anchor's home. -/
  | teamDescend (q : Nat)
  /-- TEAM_ADMISSION (R37): A core admits a queued team once all its demands fit, and the team starts. -/
  | teamAdmission (q : Nat)
  /-- TEAM_STEAL (R63): An idle core takes an unstarted team from a nearby queue. -/
  | teamSteal (q core : Nat)
  /-- TEAM_END (R54): All fibres have ended and the engine queues have performed, so the team's resources are released. -/
  | teamEnd (team : Nat)
  /-- LAUNCH_COMPLETE (R344): A launch completes and writes its completion code and status. -/
  | launchComplete (l : Nat)
  /-- WATCHDOG_EXPIRY (R450): The launch watchdog reaches 2^36 and ends the launch with status 4. -/
  | watchdogExpiry (l : Nat)
  /-- KICK (R332): A store changes the doorbell, updating WRPTR and mapping or queuing the queue. -/
  | kick (q : Nat)
  /-- LAUNCH (R342): The parser checks a launch record and hands it to the distributors or refuses it. -/
  | launch (q : Nat)
  /-- BARRIER (R331): A queue command that stops consumption until earlier launches complete. -/
  | barrier (q : Nat)
  /-- SIGNAL (R331): A queue command that stores a value once earlier launches complete. -/
  | signal (q : Nat)
  /-- WAIT (R331): A queue command that stops consumption until a word reaches a value. -/
  | wait (q : Nat)
  /-- WAIT_RECHECK (R331): A watch wake makes the scheduler reread a WAIT word. -/
  | waitRecheck (q : Nat)
  /-- CLOSE (R345): A queue command that closes an open task or node launch. -/
  | close (q : Nat)
  /-- IDLE_TIMEOUT (R333): A Mapped queue idle for 2^18 cycles is saved and unmapped, freeing its slot. -/
  | idleTimeout (q : Nat)
  /-- QCB_SAVE_COMPLETE (R337): Saving a QCB completes, and a held kick is then taken. -/
  | qcbSaveComplete (q : Nat)
  /-- EPRIO_AGEING (R336): A Pending queue's EPRIO rises by one every 2^16 cycles. -/
  | eprioAgeing (q : Nat)
  /-- ADMISSION_WAIT_PREEMPT (R354): A launch that has waited 2^16 cycles triggers priority pre-emption. -/
  | admissionWaitPreempt (l : Nat)
  /-- PREEMPTION_STOP (R355): A stop ends admission and saves or discards every team of the launch. -/
  | preemptionStop (l : Nat)
  /-- RESTORE (R355): A saved launch is checked, its grant ranges are rewritten, and its teams are placed again. -/
  | restore (l : Nat)
  /-- CLUSTER_STAGE_RELEASE (R432): After 64 cycles, the cluster stage passes a fault key to core 3, which sends one fault record. -/
  | clusterStageRelease (die : Nat)
  /-- MAILBOX_UNKNOWN_COMMAND (R398): A latched request with an unknown code completes with status 1. -/
  | mailboxUnknownCommand (core : Nat)
  /-- FETCH_OUTSIDE_CODE (R419): A ready lane whose IP lies outside the code range raises badtarget 3. -/
  | fetchOutsideCode
  /-- SLICE_REMAP_DRAINED (R138): Every requester has adopted the new slice map, so the retired slice is removed. -/
  | sliceRemapDrained
  /-- HEARTBEAT (R477): A firmware core increments its heartbeat every 2^20 cycles. -/
  | heartbeat
  /-- HEARTBEAT_TIMEOUT (R477): A heartbeat unchanged for 2^22 cycles restarts the firmware core. -/
  | heartbeatTimeout
  /-- IN_SERVICE_CHANGE_START (R408): A waiting in-service change for a tower starts when the previous one completes. -/
  | inServiceChangeStart
  /-- PACKAGE_RESET (R403): Package reset runs the verified boot sequence. -/
  | packageReset
  /-- ATTEST (R404): Core 0 writes a signed attestation report over a nonce. -/
  | attest
  /-- ACCEPT (R405): Accepts a feature vector once per boot. -/
  | accept
  /-- PAIR (R406): Names a partner package as primary or standby. -/
  | pair
  /-- REGISTER (R330): Registers a user queue's QCB and queue context. -/
  | register
  /-- UNREGISTER (R400): Unregisters a user queue, saving its QCB when Mapped. -/
  | unregister
  /-- PLIMIT (R333): Sets a partition's slot limit. -/
  | plimit
  /-- PREEMPT (R354): Driver command that pre-empts a launch. -/
  | preempt
  /-- INVAL (R401): Drops cached translations of a range and resolves outstanding faults there. -/
  | inval
  /-- APERTURE (R402): Maps or unmaps aperture pages onto a context's virtual range. -/
  | aperture
  /-- UPDATE (R407): Live-updates a firmware core by verified handover. -/
  | update
  /-- RETIRE (R408): Retires a core or an L2 slice in service. -/
  | retire
  /-- CORE0_FAILURE (R478): Failure of core 0 makes the package fatal. -/
  | core0Failure
  /-- STANDBY_TAKEOVER (R406): The standby sees no heartbeat for 2^24 cycles and becomes primary. -/
  | standbyTakeover
  /-- ZUNOS_PACKET (R360): A packet arrives on a Zunos port, and a reserved one is discarded. -/
  | zunosPacket (p : Packet)
  /-- BEAT_CRC_ERROR (R472): A bad beat CRC asserts the error line and holds it and every later beat for resend. -/
  | beatCrcError (tower : Nat)
  /-- COOLANT_FLOW (R32): The flow sensor reports flow and the towers leave reset. -/
  | coolantFlow (flows : Bool)
  /-- THERMAL_THROTTLE (R30): The power limit or 95 °C inserts idle issue cycles on a tower. -/
  | thermalThrottle (tower : Nat)
  /-- THERMAL_STOP (R31): 105 °C stops issue, pre-empts the tower and reports. -/
  | thermalStop (tower : Nat) (temp : BitVec 32)
  /-- NOISE_SOURCE_OFFLINE (R243): Failed health tests take the core's noise source offline. -/
  | noiseSourceOffline (core : Nat)
  /-- HOST_WINDOW_WRITE (R397): A write to a read-only host-window region is ignored. -/
  | hostWindowWrite (off : Nat) (w : Word)
  /-- PCIE_POSTED_WRITE (R402): A host posted write through the aperture performs at its home slice. -/
  | pciePostedWrite (off : Nat) (data : List Byte) (relaxed : Bool)
  /-- PCIE_READ (R402): A host read through the aperture returns data that includes earlier writes. -/
  | pcieRead (off len : Nat)
  /-- APP_CORE_ACCESS (R402): An application core's load, store, AMO or fence through the aperture. -/
  | appCoreAccess (a : AppAccess)
  /-- LOOP_FLIT_ERROR (R467): An uncorrectable loop flit is resent from the previous hop. -/
  | loopFlitError (tower loop : Nat)
  /-- LOOP_FAIL (R467): 16 failed resends fail the loop and move its pairs to loop n + 2. -/
  | loopFail (tower loop : Nat)
  /-- BRIDGE_CRC_ERROR (R468): A bridge-link CRC failure replays the unacknowledged flits in order. -/
  | bridgeCrcError (t u : Nat)
  /-- BRIDGE_RETRAIN (R468): After 8 failed replays the bridge link retrains, possibly at half its lanes. -/
  | bridgeRetrain (t u : Nat) (lanes : Nat)
  /-- ZUNOS_CRC_ERROR (R469): A Zunos flit CRC failure triggers link-level retry. -/
  | zunosCrcError (port : Nat)
  /-- PORT_RETRAIN (R469): After 8 failed replays the port retrains at fewer lanes. -/
  | portRetrain (port lanes : Nat)
  /-- PORT_DEAD (R470): A port that fails at 2 lanes goes down and its flows are rerouted. -/
  | portDead (port : Nat)
  /-- CORRECTED_ERROR (R461): A single-bit storage error is corrected in the read path and counted. -/
  | correctedError (u : StorageUnit)
  /-- PATROL_SCRUB (R461): The scrubber reads and corrects each protected unit once per 2^34 cycles. -/
  | patrolScrub (u : StorageUnit) (found : Nat)
  /-- UNCORRECTABLE_ERROR (R463): An uncorrectable unit reaches a consumer and raises dataerr. -/
  | uncorrectableError (u : StorageUnit) (f : Nat) (lanes : Mask)
  /-- THERMAL_THROTTLE_END (R30): Package power falls back within its limit and the die junction falls below 95 °C, so the power and health core stops inserting idle issue cycles on the tower. -/
  | thermalThrottleEnd (tower : Nat)
deriving DecidableEq, Repr

end Sys2Proof
end

