-- ==== Sys2Proof/Machine/State.lean ====
section
/-! DEFINITION. The state of a DMT-TW8A package as plain data: fibres, teams, cores, memory and slices, towers,
launches, queues, tasks, firmware; the reasons a step can stop; and the state right after package reset. -/

namespace Sys2Proof.Machine

/-! ## Fibres -/

/-- The states of R50, but for Handler, which is a mark of its own, and with the wait of R412 for results before a
trap is entered. -/
inductive Run where
  | ready | current | parked | barrier | held | ended | trapping
deriving DecidableEq, Repr

/-- What a Parked, Barrier or Held fibre waits for (R50), with what its end does. -/
inductive Waits where
  /-- nothing -/
  | none
  /-- results outstanding at a switch point (R47) -/
  | results
  /-- `nap` until a cycle; the lanes then move on (R202) -/
  | nap (until_ : Nat) (lanes : Mask)
  /-- `waddr` until a wake-up or a cycle; the lanes then move on (R265) -/
  | waddr (until_ : Nat) (lanes : Mask)
  /-- `barw`, or an arrival behind an incomplete phase, on a team barrier; issues again (R264) -/
  | barw (b : Nat)
  /-- `cbtake` on a circular buffer, issues again (R255) -/
  | cb (b : Nat)
  /-- `lease`, or `mma` without it, issues again (R64) -/
  | lease
  /-- `sigw` or `collw` under a watch, issues again (R311, R316) -/
  | watch
  /-- `tspawn` while the dependence table is full, issues again (R319) -/
  | table
  /-- `bar` b (0 to 7), `fbar` (8), `cbar` (9) or `tcommit` (10): the phase's end moves the lanes on (R264, R320) -/
  | phase (which : Nat) (lanes : Mask)
  /-- the same barriers before the arrival counts: earlier accesses, or for `fbar` register writes, have still to perform (R49, R156) -/
  | coming (which : Nat) (lanes : Mask)
  /-- pages that are not mapped: the context and the granules (R435) -/
  | granules (ctx : Nat) (vas : List Nat)
  /-- room in a fault filter (R431) -/
  | room
  /-- room in a side log, with the context and the granules already recorded in the filter (R436) -/
  | logRoom (ctx : Nat) (vas : List Nat)
  /-- the fibre's own side-log entries (R438) -/
  | log
  /-- the answer of a firmware call (R328) -/
  | firmware
deriving DecidableEq, Repr

/-- A write that a read issued too early may not see (R45), or that another fibre of the slot is not ordered with
(R49): the class and number written (a pool register for vectors), the lanes, the values before, the cycle from
which the writer's own reads see it (none: a switch point), the fibres ordered after it, and those that an offer not yet claimed will order (R267).
`step` and `name` say when it was made: the count of steps, and the name that a result noted then would get. -/
structure Hazard where
  cls : Cls
  reg : Nat
  lanes : Mask
  olds : SMap Word
  until_ : Option Nat
  ordered : List Nat
  offered : List Nat
  step : Nat
  name : Nat
deriving DecidableEq, Repr

/-- One register write of a result: class, number (a pool register for vectors), and the value of each lane
(lane 0 alone for a uniform register; for a predicate, a nonzero value is a true bit). -/
structure RegWrite where
  cls : Cls
  reg : Nat
  lanes : Mask
  vals : SMap Word
deriving DecidableEq, Repr

/-- A variable-latency result that has not performed its register writes (R46). `due` holds back a result that is
not known yet (a load, an engine operation); the flags merge into `%fpflags` with the write (R82). -/
structure Result where
  id : Nat
  fid : Nat
  known : Bool
  writes : List RegWrite
  flags : BitVec 5
deriving DecidableEq, Repr

/-- The 128 bits of `%trapinfo` (R83). -/
structure TrapInfo where
  cause : BitVec 8
  field : BitVec 3
  detail : BitVec 16
  mask : Mask
  ip : Word
  offset : Word
deriving DecidableEq, Repr

/-- A fibre: one group of 32 lanes with its registers (R3, R38, R50, R51, R70, R80, R88). -/
structure Fibre where
  id : Nat
  team : Nat
  /-- the slot of the team, 0 to g/f - 1, and the role in it (R35) -/
  slot : Nat
  role : Nat
  run : Run
  waits : Waits
  /-- the Handler state (R50) -/
  handler : Bool
  ips : SMap Word
  live : Mask
  /-- lanes waiting in `ldfe` or `stfe`, and lanes a word is reserved for (R254) -/
  waiting : Mask
  reserved : Mask
  winBase : Nat
  winSize : Nat
  /-- a window claimed by `fclaim.set` that the next switch point makes the fibre's window (R268) -/
  winNext : Option (Nat × Nat)
  allot : Nat
  uregs : SMap Word
  preds : SMap Word
  sgw : Word
  fpflags : Word
  rmode : Word
  rngmode : Word
  trapinfo : TrapInfo
  preIps : SMap Word
  preLive : Mask
  /-- the lanes that were waiting in `ldfe` or `stfe` when the trap was entered (R325) -/
  preWait : Mask
  /-- a trap found and not yet entered (R412) -/
  pending : Option TrapInfo
  /-- the earliest cycle of the next issue (R43), and the cycle it became Current (R48) -/
  notBefore : Nat
  since : Nat
  hazards : List Hazard
  /-- the team-barrier phase of the latest arrival on each barrier (R264) -/
  arrived : SMap Nat
  /-- operations that a queue fence holds the fibre's own accesses behind (R164) -/
  qhold : List Nat
  /-- a core-scope release fence has been issued (R153) -/
  coreFence : Bool
  /-- cores whose promotion tag a strong access of the fibre has met, for its next acquire fence (R152) -/
  heard : List Nat
deriving DecidableEq, Repr

/-! ## Memory accesses -/

/-- The ordering kinds of R140. -/
inductive Order where
  | weak | relaxed | acquire | release | acqRel
deriving DecidableEq, Repr

/-- The operations of R258, with the exact sums of R260, the plain kinds, and the signal reads. -/
inductive MemKind where
  | load | store
  | add | sub | minOp | maxOp | andOp | orOp | xorOp | xchg | cas | inc | dec
  | xaddF | xaddI | xaddISat
  /-- `waddr`: compares with the expected value and watches (R137) -/
  | watch (expected : Word)
  /-- `sigw`: an acquire load that watches until the threshold is reached (R311) -/
  | sigw (threshold : Word)
  /-- `collw`: an acquire load of a status word that watches until DONE (R316) -/
  | collw (test : Bool)
  /-- a prefetch, into the L1 or the home slice alone (R133, R256) -/
  | prefetch (l1 : Bool)
deriving DecidableEq, Repr

/-- One piece of a lane's element within one line: bits `bit` to `bit + nbits - 1` counted from the byte `key` of
storage, holding the element's bits from `eltBit` up; and the lane's data. -/
structure Seg where
  lane : Nat
  key : Nat
  bit : Nat
  nbits : Nat
  eltBit : Nat
  data : BitVec 128
  data2 : BitVec 128
deriving DecidableEq, Repr

/-- Where a line request stands (R131, R115): not yet sent, on its way, performed, answered. -/
inductive ReqState where
  | waiting | sent | done | answered
deriving DecidableEq, Repr

/-- Whether a request has performed. -/
def ReqState.isDone : ReqState → Bool
  | .done | .answered => true
  | _ => false

/-- A request for one line (R124): the operation, the line (its first storage byte) and its physical address, the home slice as the
core names it, what the lanes ask of it, and the value bits read so far for each lane. -/
structure Req where
  id : Nat
  op : Nat
  line : Nat
  pa : Nat
  view : Nat
  bank : Nat
  /-- the loops it travels on, each a tower and a number, once sent (R357, R359) -/
  legs : List (Nat × Nat)
  segs : List Seg
  state : ReqState
  got : SMap (BitVec 128)
  sentAt : Nat
  /-- a no-allocate read (R132) -/
  noAlloc : Bool
deriving DecidableEq, Repr

/-- A memory operation of a fibre that has issued (R142, R250). A fence is one with no request. -/
structure MemOp where
  id : Nat
  fid : Nat
  team : Nat
  core : Nat
  kind : MemKind
  order : Order
  scope : Nat
  fence : Bool
  signed : Bool
  nbits : Nat
  /-- sub-byte store elements do not allocate in the L1 (R117); hint `.nl1` neither (R181) -/
  alloc : Bool
  /-- the placement hint: 2 evicts first (R181) -/
  hint : Nat
  ip : Word
  lanes : Mask
  /-- lanes out of bounds that receive zero (R123) -/
  zeros : Mask
  /-- the destination: class, first register, number of words -/
  dcls : Cls
  dreg : Nat
  words : Nat
  /-- the result that the answer completes -/
  result : Option Nat
  tag : Bool
  performed : Bool
deriving DecidableEq, Repr

/-- A line of an L1 (R117). -/
structure L1Line where
  line : Nat
  bytes : SMap Byte
  dirty : BitVec 128
  /-- it holds a store that sent a promotion tag (R153) -/
  tagged : Bool
  /-- it is to be evicted first (R181) -/
  first : Bool
deriving DecidableEq, Repr

/-- A cached translation (R126): context, level of the leaf (0 to 2), page number at that level, and the leaf. -/
structure TlbEntry where
  ctx : Nat
  level : Nat
  page : Nat
  leaf : BitVec 64
deriving DecidableEq, Repr

/-- A fault-filter entry of a core (R431). -/
structure FilterEntry where
  ctx : Nat
  va : Nat
  acc : BitVec 4
  level : Nat
  plo : BitVec 3
  ht : BitVec 2
  /-- another placement has been merged into it (R85, R432) -/
  conflict : Bool
  waiters : Nat
deriving DecidableEq, Repr

/-- An entry of a cluster stage, or a key outstanding at core 3 (R432). -/
structure StageEntry where
  ctx : Nat
  va : Nat
  acc : BitVec 4
  level : Nat
  plo : BitVec 3
  ht : BitVec 2
  conflict : Bool
  waiters : Nat
  die : Nat
  since : Nat
deriving DecidableEq, Repr

/-- A side-log entry: one line of a retired store, reduction, exact sum or `app` row (R436). Entries stand in the order of `issue`, the
name that the instruction had at its issue, and of the line address within one instruction. -/
structure LogEntry where
  id : Nat
  issue : Nat
  team : Nat
  fid : Nat
  core : Nat
  tower : Nat
  ip : Word
  lanes : Mask
  ctx : Nat
  va : Nat
  kind : MemKind
  order : Order
  scope : Nat
  signed : Bool
  nbits : Nat
  /-- pieces with keys counted within the line -/
  segs : List Seg
  /-- the `app` operation that owns the entry, when it is a row (R438) -/
  owner : Option Nat
  plo : BitVec 3
  ht : BitVec 2
  /-- moved to core 3 when its team was saved (R440) -/
  parked : Bool
  /-- it sends a promotion tag where it performs (R153) -/
  tag : Bool
  /-- the level of a page that it met unmapped again when no filter entry was free: its key is still to open (R437) -/
  unkeyed : Option Nat
deriving DecidableEq, Repr

/-- The exact accumulator of a word by the storage key of its first byte, in its slice or spilled unrounded (R111,
R113, R114): a spill and a reload change no value. -/
structure Exact where
  key : Nat
  /-- the home slice, and whether the state has been spilled from it -/
  bank : Nat
  spilled : Bool
  isFloat : Bool
  value : Int
  nan : Bool
  pinf : Bool
  ninf : Bool
  count : Nat
  sat : Bool
deriving DecidableEq, Repr

/-- A watch on a line (R137): the fibre, or a queue whose WAIT command waits (R331). -/
structure Watch where
  line : Nat
  bank : Nat
  fid : Option Nat
  queue : Option Nat
  core : Nat
deriving DecidableEq, Repr

/-- A promotion tag: a line and the core it names (R153). -/
structure PromoTag where
  line : Nat
  bank : Nat
  core : Nat
deriving DecidableEq, Repr

/-- A run of line reads of a fibre through a vertical port (R132): the physical address of the latest line and the length of the
run. -/
structure Stream where
  fid : Nat
  port : Nat
  line : Nat
  run : Nat
deriving DecidableEq, Repr

/-- A line in the staging buffer of a slice (R132). -/
structure Staged where
  bank : Nat
  line : Nat
deriving DecidableEq, Repr

/-- A slice retirement in progress (R138): the slice, its owner, the reason, and the hash values that it served. -/
structure SliceRetire where
  slice : Nat
  owner : Nat
  reason : Nat
  hashes : List Nat
deriving DecidableEq, Repr

/-! ## Engine operations -/

/-- What an engine operation does (R162). -/
inductive EngKind where
  | cp | cpg | cps | cp2d | cpcb
  | mma | azero | adrain | aswap | ald | ast | aflag | tld | tst | tcvt
  | bld | bldBc | bwst
  | am | put | putsig | get | app | coll
  /-- waits for results and enters no queue (R298, R302) -/
  | cpw | bwbar
deriving DecidableEq, Repr

/-- An operation of an engine queue (R162, R272): the instruction's fields, its operand values read at issue, its
records, how far it has come, the page it is held on, and the operations a queue fence holds it behind. -/
structure EngOp where
  id : Nat
  kind : EngKind
  queue : Nat
  fid : Nat
  ip : Word
  lanes : Mask
  enc : Enc
  mode : Nat
  vals : List Nat
  laneVals : SMap (BitVec 128)
  recD : BitVec 256
  recA : BitVec 256
  pos : Nat
  begun : Bool
  held : Option Nat
  after : List Nat
  result : Option Nat
  /-- bytes of the item in progress that have been moved, and the value of those read -/
  part : Nat
  got : Nat
  /-- physical lines counted under R130, and the tower where the team ran at issue -/
  lines : List Nat
  tower : Nat
  /-- of a copy whose source and destination overlap: each byte that it has overwritten, by its place, plus one (R295) -/
  olds : SMap Nat
  /-- of a copy: the bytes read from a line of its source and not yet written, and how many (R133) -/
  stock : Nat
  stocked : Nat
  /-- the virtual address of the latest line it has come to (R87) -/
  reached : Nat
deriving DecidableEq, Repr

/-- A queue fence: the queues it holds and the operations that went before (R164). -/
structure QFence where
  mask : BitVec 7
  before : List Nat
deriving DecidableEq, Repr

/-- A circular buffer (R135), with the claimed slots in claim order and whether each is filled. -/
structure CBuf where
  base : Nat
  sz : Nat
  ns : Nat
  wp : Nat
  rp : Nat
  filled : Nat
  free : Nat
  gp : Nat
  claims : List (Nat × Bool)
deriving DecidableEq, Repr

/-- An accumulator: elements by 64 i + j, and flags V O S N in bits 0 to 3 (R76, R77). -/
structure Acc where
  elems : SMap Word
  flags : BitVec 4
deriving DecidableEq, Repr

/-- A barrier: the phases completed, and the fibres that have arrived in the open phase (R264). -/
structure Barr where
  phase : Nat
  arrived : List Nat
deriving DecidableEq, Repr

/-- The lease states of R353. -/
inductive Lease where
  | none | waiting | held | releasing
deriving DecidableEq, Repr

/-- How a team came to be (R40, R56, R57, R59, R69, R307). -/
inductive Origin where
  | grid | task (entry : Nat) | node | handler (fibre : Nat) | hen
deriving DecidableEq, Repr

/-- A lane that waits for a scratchpad word's bit (R254). -/
structure FeWait where
  word : Nat
  fid : Nat
  lane : Nat
  /-- it waits for the word to be full (`ldfe`), or empty -/
  full : Bool
  reserved : Bool
  /-- the place was taken in the Handler state (R412) -/
  handler : Bool
deriving DecidableEq, Repr

/-- A team: up to 32 groups resident on one core (R3, R34 to R40, R80, R87). -/
structure Team where
  id : Nat
  launch : Nat
  origin : Origin
  /-- the linear index of R62 -/
  index : Nat
  core : Nat
  kernel : Nat
  tx : Word
  ty : Word
  tz : Word
  gx : Word
  gy : Word
  gz : Word
  crank : Nat
  cluster : Nat
  clusterSize : Nat
  groups : Nat
  perSlot : Nat
  /-- the issue slots of the core that the team holds, in the order of its slots -/
  coreSlots : List Nat
  scratch : Nat
  nacc : Nat
  started : Nat
  locl : BitVec 64
  locr : BitVec 64
  /-- pool register q, lane L of team slot j at (512 j + q) 32 + L (R38, R39) -/
  pool : SMap Word
  /-- granule g of tile m at 64 m + g (R75) -/
  tiles : SMap (BitVec 264)
  accs : SMap Acc
  spad : SMap Byte
  fe : SMap Bool
  feq : List FeWait
  /-- the promotion tags of scratchpad words: word and core (R152) -/
  spTags : List (Nat × Nat)
  cbufs : SMap CBuf
  bars : SMap Barr
  fbars : SMap Barr
  cbar : Barr
  commit : Barr
  committed : Bool
  queues : List EngOp
  qfences : List QFence
  lease : Lease
  leaseLeft : Nat
  restored : Bool
  entries : List Nat
  nslots : Nat
  beatsApplied : Nat
  stopped : Bool
  /-- its uncorrectable units, by code and unit (R464) -/
  bad : List (Nat × Nat)
deriving DecidableEq, Repr

/-! ## Cores and towers -/

/-- An active message on its way to a handler queue (R306, R307). -/
structure AmMsg where
  id : Nat
  core : Nat
  launch : Nat
  handler : Nat
  payload : List Word
  sender : Word
  /-- the fibre that sent it: its messages to one core stay in order (R307) -/
  fibre : Nat
deriving DecidableEq, Repr

/-- A core, by 96 times `%die` plus `%core` (R10, R17). -/
structure Core where
  id : Nat
  l1 : List L1Line
  tlb : List TlbEntry
  /-- granule g of column c at 248 c + g (R288) -/
  bslices : SMap (BitVec 264)
  lastCtx : Option Nat
  rr : Nat
  lastIssue : Option Nat
  /-- the current fibre of each issue slot, plus one, 0 for none (R42) -/
  current : SMap Nat
  arbLast : Nat
  noiseOn : Bool
  filter : List FilterEntry
  errors : Nat
  retiring : Bool
  /-- the launches of signature-chosen variants that its retirement waits for (R342) -/
  awaits : List Nat
  /-- the B granules with an uncorrectable unit (R464) -/
  bad : List Nat
deriving DecidableEq, Repr

/-- A Bellwether beat (R159, R291, R300, R136): the team (0 for a restore), entry, window offset and 64 bytes with
word enables, or a B granule for the layers named; the key once transmitted; the resends. -/
structure Beat where
  id : Nat
  team : Nat
  core : Nat
  ctx : Nat
  op : Nat
  off : Nat
  data : BitVec 512
  enable : BitVec 16
  /-- a B granule: column, granule, layers, bits -/
  gran : Option (Nat × Nat × BitVec 6 × BitVec 264)
  key : Option (Nat × Nat)
  entry : Nat
  bad : Bool
  resends : Nat
deriving DecidableEq, Repr

/-- A record in a Hen (R69). -/
structure HenRec where
  launch : Nat
  key : Word
  payload : List Word
deriving DecidableEq, Repr

/-- A tower: base die, channel and engines (R21). -/
structure Tower where
  id : Nat
  /-- the team bound to each slot-table entry (R66) -/
  slots : SMap Nat
  removed : BitVec 8
  beats : List Beat
  shadow : SMap Byte
  /-- the key of the latest beat transmitted: cycle and channel (R159) -/
  lastKey : Option (Nat × Nat)
  sliceMap : SMap Nat
  retire : Option SliceRetire
  hen : List HenRec
  deposits : List HenRec
  idle : Bool
  stopped : Bool
  change : Option (Nat × Nat × Nat)
  waitingChanges : List (Nat × Nat × Nat)
  loopsFailed : BitVec 16
  /-- the uncorrectable units of its shadow, 8 bytes each (R464) -/
  bad : List Nat
deriving DecidableEq, Repr

/-- A compute die with its operand die: stack window, sleep, cluster stage (R18, R33, R432). -/
structure Layer where
  id : Nat
  asleep : Bool
  window : SMap Byte
  stage : List StageEntry
  /-- the uncorrectable units of its window, 8 bytes each (R464) -/
  bad : List Nat
deriving DecidableEq, Repr

/-! ## Launches, queues, tasks -/

/-- A kernel entry as the parser reads it: name, variant, entry, count, handler and descriptor (R192, R341). -/
structure Kernel where
  name : List Byte
  any : Bool
  sig : BitVec 64
  entry : Word
  count : Word
  handlerIp : Word
  desc : BitVec 288
  cbufs : List (BitVec 64)
deriving DecidableEq, Repr

/-- The lifetime of a launch (R344, R345, R355). -/
inductive LaunchState where
  | running | stopping | saved | restoring
deriving DecidableEq, Repr

/-- A batch of a node front end: its records, the cycle at which its timer lapses (while the launch does not run: the cycles left),
and the records on their way to it (R348). -/
structure Batch where
  recs : List (List Word)
  timer : Option Nat
  incoming : List (List Word)
deriving DecidableEq, Repr

/-- A run of save areas (R355): base, length, the size of an area, and how many of its areas have been given out. -/
structure SaveRun where
  base : Nat
  len : Nat
  size : Nat
  used : Nat
deriving DecidableEq, Repr

/-- A launch (R55, R338, R344). -/
structure Launch where
  id : Nat
  queue : Nat
  recVa : Nat
  qctx : Nat
  ctx : Nat
  record : List Byte
  kind : Nat
  cls : Nat
  hen : Bool
  mig : Bool
  kernels : SMap Kernel
  kernel : Nat
  cont : Nat
  handlers : List Nat
  nodes : List Nat
  code : SMap Byte
  /-- the bytes of code that could be read at acceptance, in lines of 128 (R166) -/
  codeBase : Nat
  codeLines : List Nat
  bySig : Bool
  state : LaunchState
  isOpen : Bool
  started : Nat
  nextTeam : Nat
  nTeams : Nat
  ended : Nat
  watchdog : Nat
  batch : Batch
  outcome : Option (Nat × BitVec 32)
  savedRuns : List SaveRun
  /-- the towers that a rack-wide pre-emption has stopped it on, with the granted range of each one's window (R136) -/
  savedWins : List (Nat × SMap Byte)
  spawned : Nat
  doneSpawned : Nat
deriving DecidableEq, Repr

/-- The levels a queued team can stand at (R346); `away` is a package of the pool that it has been sent to. -/
inductive Level where
  | rack | tray | away (p : Nat) | pkg | tower (t : Nat) | die (d : Nat) | core (c : Nat)
deriving DecidableEq, Repr

/-- A team that waits in a distributor queue (R346, R347). -/
structure QTeam where
  id : Nat
  launch : Nat
  origin : Origin
  index : Nat
  kernel : Nat
  level : Level
  cluster : Nat
  clusterSize : Nat
  crank : Nat
  /-- registers placed at start (R40): class, number, and the values of the lanes -/
  placed : List RegWrite
  live : Mask
  /-- the saved team that this one restores -/
  restore : Option Nat
  since : Nat
deriving DecidableEq, Repr

/-- A team that pre-emption has saved: what its save area does not hold (R355, R440): the team and its fibres as they stood,
the results of its saved engine operations, the area, the run it lies in, and what parked entries have added to `%locl` and
`%locr`. -/
structure SavedTeam where
  team : Team
  fibres : List Fibre
  results : List Result
  area : Nat
  run : Nat
  addL : Nat
  addR : Nat
deriving DecidableEq, Repr

/-- The states of a user queue (R333). -/
inductive QState where
  | unmapped | pending | mapped
deriving DecidableEq, Repr

/-- A registered user queue (R330, R333). -/
structure UQueue where
  id : Nat
  qcb : Nat
  ctx : Nat
  rbase : Nat
  log2n : Nat
  rdptr : Word
  wrptr : Word
  prio : Nat
  eprio : Nat
  state : QState
  slot : Nat
  part : Nat
  lsig : Nat
  psince : Nat
  dbell : Nat
  /-- where its doorbell word lies in storage, and whether a store has changed it since the scheduler read it (R332) -/
  bell : Option Nat
  rung : Bool
  /-- the cycle from which the queue has been idle -/
  idleSince : Option Nat
  /-- its WAIT command has been read and stands under a watch -/
  watching : Bool
  /-- its QCB is being saved -/
  saving : Bool
  /-- the code of its queue error, or 0 -/
  stoppedBy : Nat
deriving DecidableEq, Repr

/-- The states of a task (R352). -/
inductive TaskState where
  | waiting | ready | placed | running | committed | retired
deriving DecidableEq, Repr

/-- An entry of the package dependence table (R351, R352). -/
structure Task where
  entry : Nat
  launch : Nat
  seq : Nat
  recVa : Nat
  mig : Bool
  arg : Word
  /-- the read and the write ranges in their places: first tile and count -/
  reads : List (Nat × Nat)
  writes : List (Nat × Nat)
  state : TaskState
  /-- tile and the pool version given to it -/
  versions : List (Nat × Nat)
  heldVa : Option Nat
deriving DecidableEq, Repr

/-- The recorded writer of a tile and the versions still allocated (R350, R352). -/
structure TileRec where
  launch : Nat
  tile : Nat
  writer : Option Nat
  versions : List (Nat × Nat)
  initial : Option Nat
  /-- the committed writers whose entries of the table are free again -/
  gone : List Nat
deriving DecidableEq, Repr

/-! ## Collectives -/

/-- A packet of a collective (R370): its header fields and elements; the hop that it goes to; on the return path how many
elements have been written; where it came from or returns to (a member m as 4 m, a hop h as 4 h + 1, a port p as 4 p + 2, nowhere
as 3); the cycle after which it stood in a combination, 0 before that. -/
structure CollPacket where
  id : Nat
  collId : Nat
  chunk : Nat
  rlo : Nat
  rhi : Nat
  type : Nat
  op : Nat
  kind : Nat
  route : List Nat
  nel : Nat
  err : Bool
  ret : Bool
  payload : List (BitVec 384)
  hop : Nat
  written : Nat
  input : Nat
  arrived : Nat
deriving DecidableEq, Repr

/-- What a hop remembers for the return path (R371, R373): the inputs, each with whether its packet included rank 0. -/
structure CollRecord where
  id : Nat
  hop : Nat
  collId : Nat
  chunk : Nat
  inputs : List (Nat × Bool)
  since : Nat
deriving DecidableEq, Repr

/-- A member of a collective in progress at its origin (R365, R369, R375, R474). -/
structure Member where
  id : Nat
  team : Nat
  op : Nat
  control : Nat
  rank : Nat
  nmem : Nat
  count : Nat
  src : Nat
  dst : Nat
  collId : Nat
  tmo : Nat
  sigOff : Nat
  sigInc : Nat
  route : List Nat
  /-- every chunk below this one has returned, and these beyond it -/
  low : Nat
  doneChunks : List Nat
  errs : Bool
  atOnce : Bool
  timedOut : Bool
  started : Nat
deriving DecidableEq, Repr

/-! ## Firmware and package -/

/-- A mailbox (R398): request word, arguments, status word, results. -/
structure Mailbox where
  request : Word
  args : List Word
  status : Word
  results : List Word
  /-- the request that the firmware has latched, with its arguments, and the status word that is still to be written (R399) -/
  latched : Option (Word × List Word)
  answer : Option Word
deriving DecidableEq, Repr

/-- A firmware core's life (R407, R477). -/
structure FwCore where
  version : Word
  /-- its image when it is not the one that it was delivered with -/
  image : Option (List Byte)
  /-- the new image while its function is handed over (R407) -/
  handover : Option (List Byte)
  heartbeat : Word
  lastBeat : Nat
  down : Bool
  failures : List Nat
deriving DecidableEq, Repr

/-- An entry of the core map (R15): NACT, NSPARE and DEGR are functions of it. -/
structure CoreMapEntry where
  active : BitVec 96
  spare : BitVec 96
deriving DecidableEq, Repr

/-- How far package reset and boot have come (R403). -/
inductive BootPhase where
  | rom | coolant | up | failed
deriving DecidableEq, Repr

/-- An attestation report (R404): what it holds, and the signature over it. Its byte layout is not given (log 13). -/
structure Report where
  nonce : List Word
  measurement : BitVec 256
  versions : List Word
  signature : BitVec 64
  accepted : BitVec 128
  updates : Nat
  sig : BitVec 3072
deriving DecidableEq, Repr

/-- Package registers, firmware and the records core 4 keeps (R397 to R408, R459 to R483). -/
structure Package where
  pkgNo : Nat
  pool : List Nat
  boot : BootPhase
  bootStatus : Word
  coolant : Bool
  coreMap : List CoreMapEntry
  signature : BitVec 64
  ports : List (BitVec 64)
  offered : BitVec 128
  accepted : BitVec 128
  acceptDone : Bool
  report : Option Report
  attests : Nat
  updates : Nat
  measurement : BitVec 256
  /-- CSR 0x7C0 and 0x7C1 of the application cores, as the boot ROM writes them (R397, R402) -/
  windowBase : BitVec 64
  apertureBase : BitVec 64
  mailboxes : List Mailbox
  fw : List FwCore
  elected : List Nat
  pair : Option (Nat × Nat)
  pairBeat : Nat
  /-- the heartbeat counter that a primary writes (R406) -/
  pairCount : Word
  displaced : Bool
  aperture : List (Nat × Nat × Nat)
  plimits : SMap Nat
  errSeq : Nat
  ringLost : Nat
  msix : Nat
  errCounts : SMap Nat
  lostLines : List (Nat × Nat)
  bridgeHalf : List (Nat × Nat)
  linkRetries : SMap Nat
  /-- how often the routing table has been reloaded (R362, R408) -/
  routes : Nat
  hostData : List Byte
  /-- posted writes with Relaxed Ordering that have not performed: offset and bytes (R402) -/
  posted : List (Nat × List Byte)
  /-- the cores whose promotion tags loads of application cores have met (R152, R402) -/
  hostHeard : List Nat
  fatal : Option (BitVec 32)
  commandRr : Nat
  /-- the tower that the last team without a home went to (R346) -/
  towerRr : Nat
deriving DecidableEq, Repr

/-- A firmware call in progress (R328). -/
structure FwCall where
  id : Nat
  fid : Nat
  service : Nat
  args : List Word
  dreg : Nat
deriving DecidableEq, Repr

/-- What a noise draw is for: `rand.u32`, `rand.f32`, or `cvt.sr` to a format code and a slot (R237, R242). -/
inductive NoiseUse where
  | raw | unit | sr (code slot : Nat)
deriving DecidableEq, Repr

/-- A draw that waits in its core, in the order of issue (R240, R241): the result it completes, the log or replay mode, the instruction
and its lanes, the register of D, and for `cvt.sr` each lane's element and the old value of D. -/
structure NoiseDraw where
  result : Nat
  fid : Nat
  team : Nat
  core : Nat
  mode : Nat
  ip : Word
  lanes : Mask
  use : NoiseUse
  reg : Nat
  srcs : SMap Word
  olds : SMap Word
deriving DecidableEq, Repr

/-- The instruction in the issue stage: its fibre, its IP and the ready lanes at that IP. -/
structure Cursor where
  fid : Nat
  ip : Word
  mask : Mask
deriving DecidableEq, Repr

/-- A move of the machine: a step of the device, or an issue step of a core (R41). -/
inductive Move where
  | event (i : Instr)
  | issue (core : Nat)
deriving DecidableEq, Repr

/-- The state of the package, and the model's own counters (R70 to R89 and the rules each part names). -/
structure State where
  now : Nat
  tick : Nat
  nextId : Nat
  cursor : Option Cursor
  turn : Option Move
  inbox : List Instr
  mem : List Host.Cell
  fibres : List Fibre
  teams : List Team
  cores : List Core
  layers : List Layer
  towers : List Tower
  results : List Result
  ops : List MemOp
  reqs : List Req
  sideLog : List LogEntry
  exacts : List Exact
  watches : List Watch
  tags : List PromoTag
  streams : List Stream
  staged : List Staged
  keys : List StageEntry
  launches : List Launch
  qteams : List QTeam
  saved : List SavedTeam
  queues : List UQueue
  tasks : List Task
  tiles : List TileRec
  members : List Member
  packets : List CollPacket
  records : List CollRecord
  /-- the packets that have left the package, in order (R360) -/
  wire : List Packet
  msgs : List AmMsg
  calls : List FwCall
  draws : List NoiseDraw
  /-- the draws that noise sources have made, so that no two share a word (R243) -/
  drawn : Nat
  pkg : Package
deriving DecidableEq, Repr

/-! ## Reset -/

/-- A core right after reset: nothing cached, nothing queued (log 4). -/
def Core.reset (id : Nat) : Core :=
  { id := id, l1 := [], tlb := [], bslices := [], lastCtx := none, rr := 15, lastIssue := none, current := [],
    arbLast := 15, noiseOn := true, filter := [],
    errors := 0, retiring := false, awaits := [], bad := [] }

/-- A layer right after reset: awake, its window zero (log 4). -/
def Layer.reset (id : Nat) : Layer := { id := id, asleep := false, window := [], stage := [], bad := [] }

/-- A tower right after reset: every slot-table entry free, nothing in transmission (log 4). -/
def Tower.reset (id : Nat) : Tower :=
  { id := id, slots := [], removed := 0, beats := [], shadow := [], lastKey := none, sliceMap := [],
    retire := none, hen := [], deposits := [], idle := false, stopped := false, change := none,
    waitingChanges := [], loopsFailed := 0, bad := [] }

/-- A mailbox right after reset (R398). -/
def Mailbox.reset : Mailbox :=
  { request := 0, args := List.replicate 15 0, status := 0, results := List.replicate 15 0, latched := none,
    answer := none }

/-- A firmware core right after reset (log 4). -/
def FwCore.reset : FwCore := { version := 0, image := none, handover := none, heartbeat := 0, lastBeat := 0, down := false, failures := [] }

/-- The boot map of the model: cores 0 to 89 active and 90 to 95 spare, which R1 and R12 permit (log 4). -/
def CoreMapEntry.boot : CoreMapEntry :=
  { active := BitVec.ofNat 96 (2 ^ 90 - 1), spare := BitVec.ofNat 96 (2 ^ 96 - 2 ^ 90) }

/-- The package registers right after reset (R397, R398, R405; log 4). The core map and the port table are
published at boot (R403). -/
def Package.reset : Package :=
  { pkgNo := 0, pool := List.range 72, boot := .rom, bootStatus := 0, coolant := false,
    coreMap := List.replicate 24 CoreMapEntry.boot, signature := 0, ports := List.replicate 18 0,
    offered := 31, accepted := 0, acceptDone := false, report := none, attests := 0, updates := 0,
    measurement := 0, windowBase := 0, apertureBase := 0, mailboxes := List.replicate 8 Mailbox.reset,
    fw := List.replicate 8 FwCore.reset, elected := [], pair := none, pairBeat := 0, pairCount := 0, displaced := false,
    aperture := [], plimits := [], errSeq := 0, ringLost := 0, msix := 0, errCounts := [],
    lostLines := [], bridgeHalf := [], linkRetries := [], routes := 0, hostData := [], posted := [], hostHeard := [], fatal := none,
    commandRr := 0, towerRr := 3 }

/-- The machine right after package reset: `%time` 0 (R80), no team, no launch, no queue, memory with nothing
listed, the towers held in reset until coolant flows (R32). -/
def State.reset : State :=
  { now := 0, tick := 0, nextId := 1, cursor := none, turn := none, inbox := [], mem := [], fibres := [],
    teams := [], cores := [], layers := [], towers := [], results := [], ops := [], reqs := [], sideLog := [],
    exacts := [], watches := [], tags := [], streams := [], staged := [], keys := [], launches := [], qteams := [], saved := [],
    queues := [], tasks := [], tiles := [], members := [], packets := [], records := [], wire := [], msgs := [],
    calls := [], draws := [], drawn := 0, pkg := Package.reset }

/-! ## Why a step can stop -/

/-- The model's faults. -/
inductive Fault where
  /-- raised by every instruction's shared frame when no fibre stands in the issue stage: the machine never issues
  such an instruction, so this is a safe stop -/
  | noFibre
deriving DecidableEq, Repr

/-- The model's refusals. -/
inductive Refusal where
  /-- raised by an arm of exec that has no meaning yet; a safe stop -/
  | notModelled (mnemonic : String)
deriving DecidableEq, Repr

end Sys2Proof.Machine
end

