-- ==== Sys2Proof/Machine/Store.lean ====
section
/-! DEFINITION. Sparse maps in canonical form, memory as bytes by storage key, and the bit helpers that every
other file uses (R6, R8, R193). -/

namespace Sys2Proof.Machine

/-! ## Sparse maps -/

/-- The value at a key; an unlisted key holds the default. -/
def SMap.get {α : Type} (d : α) : SMap α → Nat → α
  | [], _ => d
  | (j, v) :: rest, k => if j = k then v else SMap.get d rest k

/-- Removes a key. -/
def SMap.erase {α : Type} : SMap α → Nat → SMap α
  | [], _ => []
  | (j, v) :: rest, k => if j = k then SMap.erase rest k else (j, v) :: SMap.erase rest k

/-- Puts a value at a key, keeping keys rising. -/
def SMap.insert {α : Type} : SMap α → Nat → α → SMap α
  | [], k, v => [(k, v)]
  | (j, w) :: rest, k, v =>
    if k < j then (k, v) :: (j, w) :: rest
    else if k = j then (k, v) :: rest
    else (j, w) :: SMap.insert rest k v

/-- Writes a value: writing the default unlists the key. -/
def SMap.set {α : Type} [DecidableEq α] (d : α) (m : SMap α) (k : Nat) (v : α) : SMap α :=
  if v = d then SMap.erase m k else SMap.insert m k v

/-- Writes `f L` at `base + L` for each lane L of a list. -/
def SMap.setLanes {α : Type} [DecidableEq α] (d : α) (m : SMap α) (base : Nat) : List Nat → (Nat → α) → SMap α
  | [], _ => m
  | L :: Ls, f => SMap.set d (SMap.setLanes d m base Ls f) (base + L) (f L)

/-- Keys strictly rising from a bound, and no entry equal to the default. -/
def SMap.wfFrom {α : Type} [DecidableEq α] (d : α) : Nat → SMap α → Bool
  | _, [] => true
  | lo, (k, v) :: rest => decide (lo ≤ k) && decide (v ≠ d) && SMap.wfFrom d (k + 1) rest

/-- The canonical form. -/
def SMap.wf {α : Type} [DecidableEq α] (d : α) (m : SMap α) : Bool := SMap.wfFrom d 0 m

/-! ## Memory -/

/-- What a byte of memory that nothing has written reads as (log 2). -/
def Memory.blank : Byte := 0

/-- The canonical form of memory: keys strictly rising, no entry equal to the blank byte. -/
def Memory.wf (m : List Host.Cell) : Bool := SMap.wf Memory.blank m

/-- Reads one byte by its storage key. -/
def Memory.read (m : List Host.Cell) (k : Nat) : Byte := SMap.get Memory.blank m k

/-- Writes one byte. -/
def Memory.write (m : List Host.Cell) (k : Nat) (b : Byte) : List Host.Cell := SMap.set Memory.blank m k b

/-- Reads n bytes as one number, the byte at the lowest key in bits 7:0 (R6). -/
def Memory.readN (m : List Host.Cell) (k : Nat) : Nat → Nat
  | 0 => 0
  | n + 1 => (Memory.read m k).toNat + 256 * Memory.readN m (k + 1) n

/-- Writes the low n bytes of a number, little-endian (R6). -/
def Memory.writeN (m : List Host.Cell) (k : Nat) : Nat → Nat → List Host.Cell
  | 0, _ => m
  | n + 1, v => Memory.writeN (Memory.write m k (BitVec.ofNat 8 v)) (k + 1) n (v / 256)

/-! ## Bits -/

/-- Bits hi:lo of a number (R8). -/
def bits (v hi lo : Nat) : Nat := v / 2 ^ lo % 2 ^ (hi + 1 - lo)

/-- Bit i of a number. -/
def bitN (v i : Nat) : Bool := v / 2 ^ i % 2 = 1

/-- 1 for true, 0 for false. -/
def b2n (b : Bool) : Nat := if b then 1 else 0

/-- The signed value of the low n bits (R193 SignExt). -/
def signed (n v : Nat) : Int :=
  if v % 2 ^ n < 2 ^ (n - 1) then ((v % 2 ^ n : Nat) : Int) else ((v % 2 ^ n : Nat) : Int) - (2 ^ n : Nat)

/-- An integer modulo 2^n, as a number. -/
def wrap (n : Nat) (x : Int) : Nat := (x % (2 ^ n : Nat)).toNat

/-- An integer modulo 2^32, as a word. -/
def word (x : Int) : Word := BitVec.ofNat 32 (wrap 32 x)

/-- SatS of R193. -/
def satS (x : Int) (n : Nat) : Int := max (-(2 ^ (n - 1) : Nat)) (min ((2 ^ (n - 1) : Nat) - 1) x)

/-- SatU of R193. -/
def satU (x : Int) (n : Nat) : Int := max 0 (min ((2 ^ n : Nat) - 1) x)

/-- The lanes of a mask, ascending. -/
def lanesOf (m : Mask) : List Nat := (List.range 32).filter fun L => m.getLsbD L

/-- The mask of a list of lanes. -/
def maskOf (ls : List Nat) : Mask := ls.foldr (fun L m => m ||| BitVec.ofNat 32 (2 ^ L)) 0

/-- The mask of the lanes that pass a test. -/
def maskWhere (p : Nat → Bool) : Mask := maskOf ((List.range 32).filter p)

/-- The number of ones. -/
def popCount (n v : Nat) : Nat := ((List.range n).filter fun i => bitN v i).length

/-- A list of bytes as one little-endian number (R6). -/
def leN : List Byte → Nat
  | [] => 0
  | b :: bs => b.toNat + 256 * leN bs

/-- The n low bytes of a number, lowest first (R6). -/
def toLe : Nat → Nat → List Byte
  | 0, _ => []
  | n + 1, v => BitVec.ofNat 8 v :: toLe n (v / 256)

/-- Position of the highest one bit, counting from 1; 0 for zero. -/
def bitLen (v : Nat) : Nat := if v = 0 then 0 else Nat.log2 v + 1

/-- The smallest of a list of numbers. -/
def minOf : List Nat → Nat
  | [] => 0
  | [a] => a
  | a :: as => min a (minOf as)

/-! ## Tables: lists of records with a name -/

/-- Replaces the record that a test finds. -/
def replaceBy {α : Type} (p : α → Bool) (f : α → α) : List α → List α
  | [] => []
  | x :: xs => (if p x then f x else x) :: replaceBy p f xs

end Sys2Proof.Machine
end

