-- ==== Sys2Proof/Machine/Forms.lean ====
section
/-! DEFINITION. The encoding rules of every instruction as one table: opcode, the MOD values that exist, the
operands each form takes, and checks 3 to 5 of R169. -/

namespace Sys2Proof

open Sys2Proof.Machine

/-! ## Opcodes (R182) -/

/-- The service that a `fwcall` names in its encoding selects the row (R328); a service held in a register is
known only when the instruction runs. -/
def Instr.ofFwcall (e : Enc) : Instr :=
  if e.a.cls = .imm ∧ e.a.pat = 0 ∧ e.a.arg = 0 ∧ ¬ e.a.neg ∧ ¬ e.a.abs then
    match e.a.num.toNat with
    | 0 => .fwcallEcho e
    | 1 => .fwcallFeatureVector e
    | 2 => .fwcallLog e
    | _ => .fwcallNoService e
  else .fwcallNoService e

/-- OP and the other fields of an instruction (R168, R182); none for a step of the device. -/
def Instr.parts : Instr → Option (Nat × Enc)
  | .bra e => some (0x001, e)
  | .brx e => some (0x002, e)
  | .call e => some (0x003, e)
  | .calli e => some (0x004, e)
  | .ret e => some (0x005, e)
  | .exit e => some (0x006, e)
  | .yield e => some (0x007, e)
  | .nop e => some (0x008, e)
  | .nopEntry e => some (0x008, e)
  | .nap e => some (0x009, e)
  | .sgw e => some (0x00A, e)
  | .ipget e => some (0x00B, e)
  | .mov e => some (0x040, e)
  | .movl e => some (0x041, e)
  | .add e => some (0x042, e)
  | .sub e => some (0x043, e)
  | .adds e => some (0x044, e)
  | .subs e => some (0x045, e)
  | .addc e => some (0x046, e)
  | .subb e => some (0x047, e)
  | .mul e => some (0x048, e)
  | .mulhi e => some (0x049, e)
  | .mad e => some (0x04A, e)
  | .madw e => some (0x04B, e)
  | .div e => some (0x04C, e)
  | .rem e => some (0x04D, e)
  | .min e => some (0x04E, e)
  | .max e => some (0x04F, e)
  | .abs e => some (0x050, e)
  | .neg e => some (0x051, e)
  | .and e => some (0x052, e)
  | .or e => some (0x053, e)
  | .xor e => some (0x054, e)
  | .andn e => some (0x055, e)
  | .not e => some (0x056, e)
  | .shl e => some (0x057, e)
  | .shr e => some (0x058, e)
  | .sar e => some (0x059, e)
  | .dsh e => some (0x05A, e)
  | .rot e => some (0x05B, e)
  | .bfe e => some (0x05C, e)
  | .bfi e => some (0x05D, e)
  | .popc e => some (0x05E, e)
  | .clz e => some (0x05F, e)
  | .ctz e => some (0x060, e)
  | .brev e => some (0x061, e)
  | .bsel e => some (0x062, e)
  | .sad e => some (0x063, e)
  | .cmp e => some (0x064, e)
  | .csel e => some (0x065, e)
  | .pand e => some (0x100, e)
  | .por e => some (0x101, e)
  | .pxor e => some (0x102, e)
  | .pnot e => some (0x103, e)
  | .psetNe e => some (0x104, e)
  | .psetMask e => some (0x104, e)
  | .pget e => some (0x105, e)
  | .voteAny e => some (0x106, e)
  | .voteAll e => some (0x106, e)
  | .voteBall e => some (0x106, e)
  | .voteEq e => some (0x106, e)
  | .shfl e => some (0x107, e)
  | .lred e => some (0x108, e)
  | .lscan e => some (0x109, e)
  | .xmatch e => some (0x10A, e)
  | .elect e => some (0x10B, e)
  | .fadd e => some (0x140, e)
  | .fsub e => some (0x141, e)
  | .fmul e => some (0x142, e)
  | .ffma e => some (0x143, e)
  | .fmin e => some (0x144, e)
  | .fmax e => some (0x145, e)
  | .fminx e => some (0x146, e)
  | .fmaxx e => some (0x147, e)
  | .fcmp e => some (0x148, e)
  | .fclamp e => some (0x149, e)
  | .frnd e => some (0x14A, e)
  | .fscale e => some (0x14B, e)
  | .fclass e => some (0x14C, e)
  | .fdot2 e => some (0x14D, e)
  | .fdot4 e => some (0x14E, e)
  | .fdiv e => some (0x14F, e)
  | .rcp e => some (0x1C0, e)
  | .rsqrt e => some (0x1C1, e)
  | .sqrt e => some (0x1C2, e)
  | .exp2 e => some (0x1C3, e)
  | .log2 e => some (0x1C4, e)
  | .sin e => some (0x1C5, e)
  | .cos e => some (0x1C6, e)
  | .tanh e => some (0x1C7, e)
  | .sigm e => some (0x1C8, e)
  | .gelu e => some (0x1C9, e)
  | .silu e => some (0x1CA, e)
  | .erf e => some (0x1CB, e)
  | .cvt e => some (0x1D0, e)
  | .cvtSr e => some (0x1D1, e)
  | .mxq e => some (0x1D2, e)
  | .mxd e => some (0x1D3, e)
  | .rand e => some (0x1D8, e)
  | .ld e => some (0x200, e)
  | .st e => some (0x201, e)
  | .ldu e => some (0x202, e)
  | .lds e => some (0x203, e)
  | .sts e => some (0x204, e)
  | .ldc e => some (0x205, e)
  | .stc e => some (0x206, e)
  | .ldfe e => some (0x207, e)
  | .stfe e => some (0x208, e)
  | .fsetEmpty e => some (0x209, e)
  | .fsetFull e => some (0x209, e)
  | .cbcfg e => some (0x20A, e)
  | .cbtake e => some (0x20B, e)
  | .cbtakeFill e => some (0x20B, e)
  | .cbgive e => some (0x20C, e)
  | .cbgiveFill e => some (0x20C, e)
  | .pfL2 e => some (0x20D, e)
  | .pfL1 e => some (0x20D, e)
  | .cinv e => some (0x20E, e)
  | .cinvAll e => some (0x20E, e)
  | .cwb e => some (0x20F, e)
  | .cwbAll e => some (0x20F, e)
  | .atom e => some (0x280, e)
  | .atoms e => some (0x281, e)
  | .red e => some (0x282, e)
  | .reds e => some (0x283, e)
  | .xadd e => some (0x284, e)
  | .fenceAcq e => some (0x2C0, e)
  | .fenceRel e => some (0x2C0, e)
  | .fenceAr e => some (0x2C0, e)
  | .qfence e => some (0x2C1, e)
  | .bar e => some (0x2C2, e)
  | .bara e => some (0x2C3, e)
  | .barw e => some (0x2C4, e)
  | .cbar e => some (0x2C5, e)
  | .fbar e => some (0x2C6, e)
  | .waddr e => some (0x2C7, e)
  | .fgive e => some (0x2D0, e)
  | .fclaimSync e => some (0x2D1, e)
  | .fclaimSet e => some (0x2D1, e)
  | .fwin e => some (0x2D2, e)
  | .mma e => some (0x300, e)
  | .lease e => some (0x301, e)
  | .unlease e => some (0x302, e)
  | .azero e => some (0x303, e)
  | .adrain e => some (0x304, e)
  | .aswap e => some (0x305, e)
  | .ald e => some (0x306, e)
  | .ast e => some (0x307, e)
  | .aflag e => some (0x308, e)
  | .tld e => some (0x309, e)
  | .tst e => some (0x30A, e)
  | .tcvt e => some (0x30B, e)
  | .bld e => some (0x30C, e)
  | .bldBc e => some (0x30D, e)
  | .cp e => some (0x340, e)
  | .cpg e => some (0x341, e)
  | .cps e => some (0x342, e)
  | .cp2d e => some (0x343, e)
  | .cpcb e => some (0x344, e)
  | .cpw e => some (0x345, e)
  | .bwst e => some (0x360, e)
  | .bwld e => some (0x361, e)
  | .bwbar e => some (0x362, e)
  | .bwslot e => some (0x363, e)
  | .bwslotN e => some (0x363, e)
  | .am e => some (0x380, e)
  | .put e => some (0x381, e)
  | .putsig e => some (0x382, e)
  | .get e => some (0x383, e)
  | .app e => some (0x384, e)
  | .coll e => some (0x385, e)
  | .collw e => some (0x386, e)
  | .collwTest e => some (0x386, e)
  | .sigw e => some (0x387, e)
  | .tspawn e => some (0x3A0, e)
  | .tcommit e => some (0x3A1, e)
  | .nemit e => some (0x3A2, e)
  | .rdr e => some (0x3A3, e)
  | .trap e => some (0x3C0, e)
  | .rttResume e => some (0x3C1, e)
  | .rttRetry e => some (0x3C1, e)
  | .rttEnd e => some (0x3C1, e)
  | .srd e => some (0x3C2, e)
  | .swr e => some (0x3C3, e)
  | .bkpt e => some (0x3C4, e)
  | .fwcallEcho e => some (0x3C5, e)
  | .fwcallFeatureVector e => some (0x3C5, e)
  | .fwcallLog e => some (0x3C5, e)
  | .fwcallNoService e => some (0x3C5, e)
  | .halt e => some (0x3C6, e)
  | .illegalInstruction _ => none
  | .fetchOutsideCode => none
  | .resultWriteback _ => none
  | .napExpiry _ => none
  | .waddrTimeout _ => none
  | .trapEntry _ => none
  | .loadResponse _ => none
  | .requestDispatch _ => none
  | .homeSliceRequest _ => none
  | .zunosPacket _ => none
  | .putsigSignal _ => none
  | .appRowStore _ => none
  | .remoteTimeout _ => none
  | .matrixOperation _ => none
  | .leaseGrant _ => none
  | .muleCopy _ => none
  | .bsliceOperation _ => none
  | .msgOperation _ => none
  | .bellwetherBeat _ _ => none
  | .beatCrcError _ => none
  | .bellwetherChannelTest _ _ => none
  | .layerSleep _ => none
  | .layerWake _ => none
  | .collectiveStart _ => none
  | .collectivePacket _ => none
  | .collectiveReturn _ => none
  | .collectiveComplete _ => none
  | .collectiveTimeout _ => none
  | .combinationTimeout _ => none
  | .amDelivery _ => none
  | .henDeposit _ => none
  | .henFlush _ _ => none
  | .nodeRecord _ => none
  | .gatherTimerLapse _ => none
  | .taskStart _ => none
  | .taskCommit _ => none
  | .teamDescend _ => none
  | .teamAdmission _ => none
  | .teamSteal _ _ => none
  | .teamEnd _ => none
  | .launchComplete _ => none
  | .watchdogExpiry _ => none
  | .kick _ => none
  | .launch _ => none
  | .barrier _ => none
  | .signal _ => none
  | .wait _ => none
  | .waitRecheck _ => none
  | .close _ => none
  | .idleTimeout _ => none
  | .qcbSaveComplete _ => none
  | .eprioAgeing _ => none
  | .admissionWaitPreempt _ => none
  | .preemptionStop _ => none
  | .restore _ => none
  | .clusterStageRelease _ => none
  | .packageReset => none
  | .coolantFlow _ => none
  | .thermalThrottle _ => none
  | .thermalStop _ _ => none
  | .noiseSourceOffline _ => none
  | .attest => none
  | .accept => none
  | .pair => none
  | .register => none
  | .unregister => none
  | .plimit => none
  | .preempt => none
  | .inval => none
  | .aperture => none
  | .update => none
  | .retire => none
  | .mailboxUnknownCommand _ => none
  | .hostWindowWrite _ _ => none
  | .sliceRemapDrained => none
  | .inServiceChangeStart => none
  | .pciePostedWrite _ _ _ => none
  | .pcieRead _ _ => none
  | .appCoreAccess _ => none
  | .loopFlitError _ _ => none
  | .loopFail _ _ => none
  | .bridgeCrcError _ _ => none
  | .bridgeRetrain _ _ _ => none
  | .zunosCrcError _ => none
  | .portRetrain _ _ => none
  | .portDead _ => none
  | .correctedError _ => none
  | .patrolScrub _ _ => none
  | .uncorrectableError _ _ _ => none
  | .heartbeat => none
  | .heartbeatTimeout => none
  | .core0Failure => none
  | .standbyTakeover => none
  | .thermalThrottleEnd _ => none

/-- The instruction of an assigned OP whose MOD is defined (R182). -/
def Instr.ofOp (op : Nat) (e : Enc) : Option Instr :=
  match op with
  | 0x001 => some (.bra e)
  | 0x002 => some (.brx e)
  | 0x003 => some (.call e)
  | 0x004 => some (.calli e)
  | 0x005 => some (.ret e)
  | 0x006 => some (.exit e)
  | 0x007 => some (.yield e)
  | 0x008 => if e.mod = 0 then some (.nop e) else if e.mod = 1 then some (.nopEntry e) else none
  | 0x009 => some (.nap e)
  | 0x00A => some (.sgw e)
  | 0x00B => some (.ipget e)
  | 0x040 => some (.mov e)
  | 0x041 => some (.movl e)
  | 0x042 => some (.add e)
  | 0x043 => some (.sub e)
  | 0x044 => some (.adds e)
  | 0x045 => some (.subs e)
  | 0x046 => some (.addc e)
  | 0x047 => some (.subb e)
  | 0x048 => some (.mul e)
  | 0x049 => some (.mulhi e)
  | 0x04A => some (.mad e)
  | 0x04B => some (.madw e)
  | 0x04C => some (.div e)
  | 0x04D => some (.rem e)
  | 0x04E => some (.min e)
  | 0x04F => some (.max e)
  | 0x050 => some (.abs e)
  | 0x051 => some (.neg e)
  | 0x052 => some (.and e)
  | 0x053 => some (.or e)
  | 0x054 => some (.xor e)
  | 0x055 => some (.andn e)
  | 0x056 => some (.not e)
  | 0x057 => some (.shl e)
  | 0x058 => some (.shr e)
  | 0x059 => some (.sar e)
  | 0x05A => some (.dsh e)
  | 0x05B => some (.rot e)
  | 0x05C => some (.bfe e)
  | 0x05D => some (.bfi e)
  | 0x05E => some (.popc e)
  | 0x05F => some (.clz e)
  | 0x060 => some (.ctz e)
  | 0x061 => some (.brev e)
  | 0x062 => some (.bsel e)
  | 0x063 => some (.sad e)
  | 0x064 => some (.cmp e)
  | 0x065 => some (.csel e)
  | 0x100 => some (.pand e)
  | 0x101 => some (.por e)
  | 0x102 => some (.pxor e)
  | 0x103 => some (.pnot e)
  | 0x104 => if e.mod = 0 then some (.psetNe e) else if e.mod = 1 then some (.psetMask e) else none
  | 0x105 => some (.pget e)
  | 0x106 => if e.mod = 0 then some (.voteAny e) else if e.mod = 1 then some (.voteAll e) else if e.mod = 2 then some (.voteBall e) else if e.mod = 3 then some (.voteEq e) else none
  | 0x107 => some (.shfl e)
  | 0x108 => some (.lred e)
  | 0x109 => some (.lscan e)
  | 0x10A => some (.xmatch e)
  | 0x10B => some (.elect e)
  | 0x140 => some (.fadd e)
  | 0x141 => some (.fsub e)
  | 0x142 => some (.fmul e)
  | 0x143 => some (.ffma e)
  | 0x144 => some (.fmin e)
  | 0x145 => some (.fmax e)
  | 0x146 => some (.fminx e)
  | 0x147 => some (.fmaxx e)
  | 0x148 => some (.fcmp e)
  | 0x149 => some (.fclamp e)
  | 0x14A => some (.frnd e)
  | 0x14B => some (.fscale e)
  | 0x14C => some (.fclass e)
  | 0x14D => some (.fdot2 e)
  | 0x14E => some (.fdot4 e)
  | 0x14F => some (.fdiv e)
  | 0x1C0 => some (.rcp e)
  | 0x1C1 => some (.rsqrt e)
  | 0x1C2 => some (.sqrt e)
  | 0x1C3 => some (.exp2 e)
  | 0x1C4 => some (.log2 e)
  | 0x1C5 => some (.sin e)
  | 0x1C6 => some (.cos e)
  | 0x1C7 => some (.tanh e)
  | 0x1C8 => some (.sigm e)
  | 0x1C9 => some (.gelu e)
  | 0x1CA => some (.silu e)
  | 0x1CB => some (.erf e)
  | 0x1D0 => some (.cvt e)
  | 0x1D1 => some (.cvtSr e)
  | 0x1D2 => some (.mxq e)
  | 0x1D3 => some (.mxd e)
  | 0x1D8 => some (.rand e)
  | 0x200 => some (.ld e)
  | 0x201 => some (.st e)
  | 0x202 => some (.ldu e)
  | 0x203 => some (.lds e)
  | 0x204 => some (.sts e)
  | 0x205 => some (.ldc e)
  | 0x206 => some (.stc e)
  | 0x207 => some (.ldfe e)
  | 0x208 => some (.stfe e)
  | 0x209 => if e.mod = 0 then some (.fsetEmpty e) else if e.mod = 1 then some (.fsetFull e) else none
  | 0x20A => some (.cbcfg e)
  | 0x20B => if e.mod = 0 then some (.cbtake e) else if e.mod = 1 then some (.cbtakeFill e) else none
  | 0x20C => if e.mod = 0 then some (.cbgive e) else if e.mod = 1 then some (.cbgiveFill e) else none
  | 0x20D => if e.mod = 0 then some (.pfL2 e) else if e.mod = 1 then some (.pfL1 e) else none
  | 0x20E => if e.mod = 0 then some (.cinv e) else if e.mod = 1 then some (.cinvAll e) else none
  | 0x20F => if e.mod = 0 then some (.cwb e) else if e.mod = 1 then some (.cwbAll e) else none
  | 0x280 => some (.atom e)
  | 0x281 => some (.atoms e)
  | 0x282 => some (.red e)
  | 0x283 => some (.reds e)
  | 0x284 => some (.xadd e)
  | 0x2C0 => if e.mod = 0 then some (.fenceAcq e) else if e.mod = 1 then some (.fenceRel e) else if e.mod = 2 then some (.fenceAr e) else none
  | 0x2C1 => some (.qfence e)
  | 0x2C2 => some (.bar e)
  | 0x2C3 => some (.bara e)
  | 0x2C4 => some (.barw e)
  | 0x2C5 => some (.cbar e)
  | 0x2C6 => some (.fbar e)
  | 0x2C7 => some (.waddr e)
  | 0x2D0 => some (.fgive e)
  | 0x2D1 => if e.mod = 0 then some (.fclaimSync e) else if e.mod = 1 then some (.fclaimSet e) else none
  | 0x2D2 => some (.fwin e)
  | 0x300 => some (.mma e)
  | 0x301 => some (.lease e)
  | 0x302 => some (.unlease e)
  | 0x303 => some (.azero e)
  | 0x304 => some (.adrain e)
  | 0x305 => some (.aswap e)
  | 0x306 => some (.ald e)
  | 0x307 => some (.ast e)
  | 0x308 => some (.aflag e)
  | 0x309 => some (.tld e)
  | 0x30A => some (.tst e)
  | 0x30B => some (.tcvt e)
  | 0x30C => some (.bld e)
  | 0x30D => some (.bldBc e)
  | 0x340 => some (.cp e)
  | 0x341 => some (.cpg e)
  | 0x342 => some (.cps e)
  | 0x343 => some (.cp2d e)
  | 0x344 => some (.cpcb e)
  | 0x345 => some (.cpw e)
  | 0x360 => some (.bwst e)
  | 0x361 => some (.bwld e)
  | 0x362 => some (.bwbar e)
  | 0x363 => if e.mod = 0 then some (.bwslot e) else if e.mod = 1 then some (.bwslotN e) else none
  | 0x380 => some (.am e)
  | 0x381 => some (.put e)
  | 0x382 => some (.putsig e)
  | 0x383 => some (.get e)
  | 0x384 => some (.app e)
  | 0x385 => some (.coll e)
  | 0x386 => if e.mod = 0 then some (.collw e) else if e.mod = 1 then some (.collwTest e) else none
  | 0x387 => some (.sigw e)
  | 0x3A0 => some (.tspawn e)
  | 0x3A1 => some (.tcommit e)
  | 0x3A2 => some (.nemit e)
  | 0x3A3 => some (.rdr e)
  | 0x3C0 => some (.trap e)
  | 0x3C1 => if e.mod = 0 then some (.rttResume e) else if e.mod = 1 then some (.rttRetry e) else if e.mod = 2 then some (.rttEnd e) else none
  | 0x3C2 => some (.srd e)
  | 0x3C3 => some (.swr e)
  | 0x3C4 => some (.bkpt e)
  | 0x3C5 => some (Instr.ofFwcall e)
  | 0x3C6 => some (.halt e)
  | _ => none

/-! ## MOD (check 2 of R169) -/

/-- The type code of the arithmetic groups, MOD[2:0] (R184, R205). -/
def Enc.ty (e : Enc) : Nat := e.mod.toNat % 8

/-- The variant, MOD[5:3] (R184, R205). -/
def Enc.var (e : Enc) : Nat := e.mod.toNat / 8

/-- MOD[3:0]: a size, an operation or a format (R233, R247, R258). -/
def Enc.lo4 (e : Enc) : Nat := e.mod.toNat % 16

/-- MOD[5:4]: an ordering kind, a type or a layout. -/
def Enc.hi2 (e : Enc) : Nat := e.mod.toNat / 16

/-- EXT[2:0]. -/
def Enc.ext3 (e : Enc) : Nat := e.ext.toNat % 8

/-- EXT[3]: the instruction carries a literal (R174). -/
def Enc.hasLit (e : Enc) : Bool := decide (8 ≤ e.ext.toNat)

/-- The source format of `cvt`: bits 1:0 in MOD[5:4], bits 3:2 in EXT[1:0] (R234). -/
def Enc.cvtSrc (e : Enc) : Nat := e.hi2 + 4 * (e.ext3 % 4)

/-- The pairs of `cvt` (R234). -/
def cvtPair (src dst : Nat) : Bool :=
  if src ≤ 7 ∧ dst ≤ 7 then src ≠ dst
  else if src = 0 then 8 ≤ dst ∧ dst ≤ 14
  else if src = 1 ∨ src = 2 then 9 ≤ dst ∧ dst ≤ 14
  else if src = 8 then dst = 0
  else if 9 ≤ src ∧ src ≤ 14 then dst ≤ 2
  else false

/-- The formats and layouts of rows in memory (R275). -/
def rowForm (fmt lay : Nat) : Bool :=
  if lay = 0 then fmt ∈ [1, 2, 3, 4, 13] else if lay ≤ 2 then 3 ≤ fmt ∧ fmt ≤ 7 else false

/-- The formats and destinations of `adrain` (R285). -/
def drainForm (fmt dst : Nat) : Bool :=
  match dst with
  | 0 => fmt ≤ 4
  | 1 | 2 => 3 ≤ fmt ∧ fmt ≤ 7
  | _ => 1 ≤ fmt ∧ fmt ≤ 7

/-- The operations and types of the atomic group (R258). -/
def atomForm (op ty : Nat) (returns : Bool) : Bool :=
  if op ≤ 6 then true else if op ≤ 8 then returns else if op ≤ 10 then ty % 2 = 0 else false

/-- Whether MOD is a value defined for the instruction (check 2 of R169). -/
def Instr.modOk : Instr → Bool
  | .nopEntry e | .psetMask e | .voteAll e | .fsetFull e | .cbtakeFill e | .cbgiveFill e | .pfL1 e
  | .cinvAll e | .cwbAll e | .fenceRel e | .fclaimSet e | .bwslotN e | .collwTest e | .rttRetry e =>
    e.mod = 1
  | .voteBall e | .fenceAr e | .rttEnd e => e.mod = 2
  | .voteEq e => e.mod = 3
  | .add e | .sub e | .adds e | .subs e | .mul e | .mulhi e | .mad e | .min e | .max e => e.var = 0
  | .mov e | .and e | .or e | .xor e | .andn e | .not e | .rot e | .bfi e | .popc e | .clz e | .ctz e
  | .brev e | .csel e => e.var = 0 ∧ e.ty ∈ [1, 3]
  | .movl e => e.var = 0 ∧ e.ty ∈ [1, 2]
  | .addc e | .subb e | .dsh e | .bsel e => e.var = 0 ∧ e.ty = 1
  | .madw e => e.var = 0 ∧ e.ty ≤ 1
  | .div e | .rem e | .bfe e => e.var = 0 ∧ e.ty ≤ 3
  | .abs e | .neg e | .sar e => e.var = 0 ∧ e.ty ∈ [0, 2, 4, 6]
  | .shl e | .shr e => e.var = 0 ∧ e.ty ∈ [1, 3, 5, 7]
  | .sad e => e.var = 0 ∧ e.ty ∈ [0, 1, 4, 5, 6, 7]
  | .cmp e => e.var ≤ 5 ∧ e.ty ≤ 3
  | .shfl e => e.var ≤ 3 ∧ e.ty ∈ [1, 3]
  | .lred e | .lscan e => e.var ≤ 5 ∧ e.ty ≤ 3
  | .xmatch e => e.var ≤ 2 ∧ e.ty ∈ [1, 3]
  | .fadd e | .fsub e | .fmul e | .ffma e | .fmin e | .fmax e | .fminx e | .fmaxx e | .fclamp e | .frnd e
  | .fscale e | .fclass e | .fdiv e | .rcp e | .rsqrt e | .sqrt e | .exp2 e | .log2 e | .sin e | .cos e
  | .tanh e | .sigm e | .gelu e | .silu e | .erf e => e.var = 0 ∧ e.ty ≤ 4
  | .fcmp e => e.ty ≤ 2
  | .fdot2 e => e.var = 0 ∧ 3 ≤ e.ty ∧ e.ty ≤ 4
  | .fdot4 e => e.var ≤ 3 ∧ e.ty = 0
  | .cvt e => cvtPair e.cvtSrc e.lo4
  | .cvtSr e => e.hi2 = 0 ∧ 1 ≤ e.lo4 ∧ e.lo4 ≤ 7
  | .mxq e | .mxd e => e.hi2 = 0 ∧ 3 ≤ e.lo4 ∧ e.lo4 ≤ 7
  | .ld e => e.lo4 ≤ 8 ∧ e.hi2 ≤ 2
  | .st e => e.lo4 ∈ [0, 2, 4, 5, 6, 7, 8] ∧ e.hi2 ≤ 2
  | .ldu e => e.lo4 ≤ 6 ∧ e.hi2 ≤ 2
  | .lds e | .ldc e => e.lo4 ≤ 6 ∧ e.hi2 = 0
  | .sts e | .stc e => e.lo4 ∈ [0, 2, 4, 5, 6] ∧ e.hi2 = 0
  | .atom e | .atoms e => atomForm e.lo4 e.hi2 true
  | .red e | .reds e => atomForm e.lo4 e.hi2 false
  | .rand e | .xadd e | .azero e | .put e | .putsig e | .get e => e.mod.toNat ≤ 1
  | .adrain e => drainForm e.lo4 e.hi2
  | .tld e | .tst e | .bld e | .bldBc e => rowForm e.lo4 e.hi2
  | .tcvt e => 3 ≤ e.ty ∧ 1 ≤ e.var
  | .cp e | .cp2d e => e.mod.toNat % 4 ≤ 2 ∧ e.mod.toNat / 4 ≤ 2
  | .cpg e => e.mod.toNat ≤ 2
  | .cps e => e.mod.toNat % 4 = 0 ∧ e.mod.toNat / 4 ≤ 2
  | .bwst e | .bwld e => e.mod.toNat ≤ 2
  | .app _ => true
  | .bra e | .brx e | .call e | .calli e | .ret e | .exit e | .yield e | .nop e | .nap e | .sgw e
  | .ipget e | .pand e | .por e | .pxor e | .pnot e | .psetNe e | .pget e | .voteAny e | .elect e | .ldfe e
  | .stfe e | .fsetEmpty e | .cbcfg e | .cbtake e | .cbgive e | .pfL2 e | .cinv e | .cwb e | .fenceAcq e
  | .qfence e | .bar e | .bara e | .barw e | .cbar e | .fbar e | .waddr e | .fgive e | .fclaimSync e
  | .fwin e | .mma e | .lease e | .unlease e | .aswap e | .ald e | .ast e | .aflag e | .cpcb e | .cpw e
  | .bwbar e | .bwslot e | .am e | .coll e | .collw e | .sigw e | .tspawn e | .tcommit e | .nemit e
  | .rdr e | .trap e | .rttResume e | .srd e | .swr e | .bkpt e | .fwcallEcho e | .fwcallFeatureVector e
  | .fwcallLog e | .fwcallNoService e | .halt e => e.mod = 0
  | .illegalInstruction _ | .fetchOutsideCode | .resultWriteback _ | .napExpiry _ | .waddrTimeout _
  | .trapEntry _ | .loadResponse _ | .requestDispatch _ | .homeSliceRequest _ | .zunosPacket _
  | .putsigSignal _ | .appRowStore _ | .remoteTimeout _ | .matrixOperation _ | .leaseGrant _ | .muleCopy _
  | .bsliceOperation _ | .msgOperation _ | .bellwetherBeat _ _ | .beatCrcError _
  | .bellwetherChannelTest _ _ | .layerSleep _ | .layerWake _ | .collectiveStart _ | .collectivePacket _
  | .collectiveReturn _ | .collectiveComplete _ | .collectiveTimeout _ | .combinationTimeout _
  | .amDelivery _ | .henDeposit _ | .henFlush _ _ | .nodeRecord _ | .gatherTimerLapse _ | .taskStart _
  | .taskCommit _ | .teamDescend _ | .teamAdmission _ | .teamSteal _ _ | .teamEnd _ | .launchComplete _
  | .watchdogExpiry _ | .kick _ | .launch _ | .barrier _ | .signal _ | .wait _ | .waitRecheck _ | .close _
  | .idleTimeout _ | .qcbSaveComplete _ | .eprioAgeing _ | .admissionWaitPreempt _ | .preemptionStop _
  | .restore _ | .clusterStageRelease _ | .packageReset | .coolantFlow _ | .thermalThrottle _
  | .thermalStop _ _ | .noiseSourceOffline _ | .attest | .accept | .pair | .register | .unregister
  | .plimit | .preempt | .inval | .aperture | .update | .retire | .mailboxUnknownCommand _
  | .hostWindowWrite _ _ | .sliceRemapDrained | .inServiceChangeStart | .pciePostedWrite _ _ _
  | .pcieRead _ _ | .appCoreAccess _ | .loopFlitError _ _ | .loopFail _ _ | .bridgeCrcError _ _
  | .bridgeRetrain _ _ _ | .zunosCrcError _ | .portRetrain _ _ | .portDead _ | .correctedError _
  | .patrolScrub _ _ | .uncorrectableError _ _ _ | .heartbeat | .heartbeatTimeout | .core0Failure
  | .standbyTakeover | .thermalThrottleEnd _ => true

/-! ## Operand slots (R170 to R176) -/

/-- How an instruction uses an operand field. -/
inductive Use where
  /-- no form of the opcode uses the field: it must be zero (check 3) -/
  | never
  /-- another MOD of the opcode uses it: class 0 (check 4) -/
  | off
  /-- a destination, or data held in field D: PAT, ARG, NEG and ABS zero (R171, R245) -/
  | dst
  /-- a source -/
  | src
deriving DecidableEq, Repr

/-- What an operand field may hold: its classes, how many registers of class 1 or 2 it names, the multiple its
number must be, whether NEG and ABS are accepted on classes 1 and 2 (R172), whether PAT must be 0, and whether
its number is tested only when the instruction runs. -/
structure Slot where
  use : Use
  cls : List Cls
  words : Nat
  align : Nat
  mods : Bool
  pat0 : Bool
  anyNum : Bool
deriving DecidableEq, Repr

/-- A field that no form uses. -/
def Slot.never : Slot := ⟨.never, [], 1, 1, false, false, false⟩

/-- A field that this form leaves out. -/
def Slot.off : Slot := ⟨.off, [], 1, 1, false, false, false⟩

/-- A destination of so many registers. -/
def Slot.dst (cls : List Cls) (words : Nat := 1) : Slot := ⟨.dst, cls, words, words, false, false, false⟩

/-- A source of so many registers. -/
def Slot.src (cls : List Cls) (words : Nat := 1) : Slot := ⟨.src, cls, words, words, false, false, false⟩

/-- A source that takes NEG and ABS (R172). -/
def Slot.arith (cls : List Cls) (words : Nat := 1) : Slot := ⟨.src, cls, words, words, true, false, false⟩

/-- A source that must have PAT 0 (R215, R216). -/
def Slot.flat (cls : List Cls) (words : Nat := 1) : Slot := ⟨.src, cls, words, words, false, true, false⟩

/-- Vector or uniform. -/
def clsVU : List Cls := [.vec, .uni]

/-- Vector, uniform or immediate. -/
def clsVUI : List Cls := [.vec, .uni, .imm]

/-- Uniform or immediate. -/
def clsUI : List Cls := [.uni, .imm]

/-- A cluster rank that may be left out (R253, R258). -/
def clsRank : List Cls := [.none, .vec, .uni, .imm]

/-- A member mask (R216). -/
def clsMask : List Cls := [.none, .uni, .imm]

/-- A buffer record: eight uniform registers from a multiple of 8 (R84). -/
def Slot.buf : Slot := Slot.src [.uni] 8

/-- A buffer record held in field D. -/
def Slot.bufD : Slot := Slot.dst [.uni] 8

/-- An endpoint of a copy or a one-sided message by its kind: global, own scratchpad, cluster (R293). -/
def Slot.endpoint (kind : Nat) (inD : Bool) : Slot :=
  match kind with
  | 0 => if inD then Slot.bufD else Slot.buf
  | 1 => Slot.off
  | _ => if inD then Slot.dst clsUI else Slot.src clsUI

/-- The encoding of one form: its operand fields, the position of a literal as a FIELD number (2 for A to 4 for
C) where one is accepted, whether the literal is required, whether a uniform D forces uniform sources (R195,
R222), the greatest SC and CH, the RM values and the values of EXT[2:0]. -/
structure Form where
  d : Slot := Slot.never
  a : Slot := Slot.never
  b : Slot := Slot.never
  c : Slot := Slot.never
  e : Slot := Slot.never
  lit : Option Nat := none
  litOnly : Bool := false
  uniRule : Bool := false
  sc : Nat := 0
  rm : List Nat := [0]
  ch : Nat := 0
  ext : List Nat := [0]
deriving DecidableEq, Repr

/-- Registers of an integer type (R205). -/
def Enc.intWords (e : Enc) : Nat := if e.ty = 2 ∨ e.ty = 3 then 2 else 1

/-- Registers of a memory size code (R247). -/
def sizeWords (code : Nat) : Nat := if code = 5 then 2 else if code = 6 then 4 else 1

/-- Registers of an atomic type (R258). -/
def Enc.atomWords (e : Enc) : Nat := if 2 ≤ e.hi2 then 2 else 1

/-- Registers of an atomic's data: twice as many for `.cas` (R258). -/
def Enc.atomData (e : Enc) : Nat := if e.lo4 = 8 then 2 * e.atomWords else e.atomWords

/-- The greatest SC of a global load or store: a weak access holds 0 (R246). -/
def Enc.scOfKind (e : Enc) : Nat := if e.hi2 = 0 then 0 else 5

/-- Registers of a special register (R80). -/
def specWords (n : Nat) : Nat := if n = 16 ∨ n = 17 ∨ n = 18 then 2 else if n = 21 then 4 else 1

/-- An integer instruction of one source (R206). -/
def Form.int1 (dw aw : Nat) : Form :=
  { d := .dst clsVU dw, a := .arith clsVUI aw, lit := some 2, uniRule := true }

/-- An integer instruction of two sources. -/
def Form.int2 (dw aw bw : Nat) : Form :=
  { d := .dst clsVU dw, a := .arith clsVUI aw, b := .arith clsVUI bw, lit := some 3, uniRule := true }

/-- An integer instruction of three sources. -/
def Form.int3 (dw aw bw cw : Nat) : Form :=
  { d := .dst clsVU dw, a := .arith clsVUI aw, b := .arith clsVUI bw, c := .arith clsVUI cw, lit := some 4,
    uniRule := true }

/-- A cross-lane instruction (R216). -/
def Form.lanes (d a b : Slot) (ext : List Nat := [0]) : Form :=
  { d := d, a := a, b := b, c := .dst [.pred], e := .src clsMask, ext := ext }

/-- The RM values of an instruction that rounds and does not saturate (R223). -/
def rmRound : List Nat := [0, 1, 2, 3, 4]

/-- A floating-point instruction of one source (R224, R231). -/
def Form.fp1 : Form :=
  { d := .dst clsVU, a := .arith clsVUI, lit := some 2, uniRule := true, rm := rmRound }

/-- A floating-point instruction of two sources. -/
def Form.fp2 : Form :=
  { d := .dst clsVU, a := .arith clsVUI, b := .arith clsVUI, lit := some 3, uniRule := true, rm := rmRound }

/-- A floating-point instruction of three sources. -/
def Form.fp3 (ab : List Cls := clsVUI) : Form :=
  { d := .dst clsVU, a := .arith ab, b := .arith ab, c := .arith clsVUI, lit := some 4, uniRule := true,
    rm := rmRound }

/-- A form that names lanes through a record, an index and an offset (R248). -/
def Form.mem (d : Slot) (idx : List Cls) (sc ch : Nat) : Form :=
  { d := d, a := .buf, b := .src idx, c := .src clsUI, lit := some 4, sc := sc, ch := ch }

/-- The atomic group (R258). -/
def Form.atomic (d a e : Slot) (ch : Nat) (ext rm : List Nat) : Form :=
  { d := d, a := a, b := .src clsVUI, c := .src clsUI, e := e, sc := 5, ch := ch, ext := ext, rm := rm }

/-- Rows in memory with a register of the device (R275, R290). -/
def Form.rows (d : Slot) (e : Enc) : Form :=
  { d := d, a := .buf, b := .src clsUI, c := .src clsUI, e := if e.hi2 = 2 then .src clsUI else .off }

/-- A copy (R293). -/
def Form.copy (e : Enc) (b : Slot) : Form :=
  { d := Slot.endpoint (e.mod.toNat % 4) true, a := Slot.endpoint (e.mod.toNat / 4 % 4) false, b := b,
    c := .src clsUI, e := .src clsUI, sc := 5, ch := 3 }

/-- A one-sided message (R305). -/
def Form.oneSided (d a b : Slot) : Form :=
  { d := d, a := a, b := b, c := .src clsUI, e := .src clsUI, sc := 5 }

/-- The form of each instruction, as its description gives it; a step of the device has none. DESIGN CHOICE (log 89): `csel` takes no
literal, whose position under R174 would be its predicate source C (R206, R212). -/
def Instr.form : Instr → Form
  | .bra _ => { a := .src [.imm], lit := some 2 }
  | .brx _ => { a := .src clsVU }
  | .call _ => { d := .dst [.vec], a := .src [.imm], lit := some 2 }
  | .calli _ => { d := .dst [.vec], a := .src clsVU }
  | .ret _ => { a := .src [.vec] }
  | .exit _ | .yield _ => {}
  | .nop _ => { a := .off, b := .off }
  | .nopEntry _ => { a := .src [.imm], b := .src [.imm] }
  | .nap _ | .sgw _ => { a := .src clsUI, lit := some 2 }
  | .ipget _ => { d := .dst clsVU, a := .src [.imm] }
  | .movl e => { d := .dst clsVU e.intWords, a := .src [.imm], lit := some 2, litOnly := true, uniRule := true }
  | .mov e | .not e | .brev e => Form.int1 e.intWords e.intWords
  | .abs e | .neg e => { Form.int1 e.intWords e.intWords with rm := [0, 5] }
  | .popc e | .clz e | .ctz e => Form.int1 1 e.intWords
  | .add e | .sub e | .adds e | .subs e | .mul e | .mulhi e | .div e | .rem e | .min e | .max e | .and e
  | .or e | .xor e | .andn e => Form.int2 e.intWords e.intWords e.intWords
  | .shl e | .shr e | .sar e | .rot e | .bfe e => Form.int2 e.intWords e.intWords 1
  | .mad e => Form.int3 e.intWords e.intWords e.intWords e.intWords
  | .bfi e => Form.int3 e.intWords e.intWords e.intWords 1
  | .madw _ => Form.int3 2 1 1 2
  | .dsh _ | .bsel _ | .sad _ => Form.int3 1 1 1 1
  | .addc _ | .subb _ =>
    { d := .dst [.vec], a := .arith clsVUI, b := .arith clsVUI, c := .src [.pred], e := .dst [.pred] }
  | .cmp e => { Form.int2 1 e.intWords e.intWords with d := .dst [.pred], uniRule := false }
  | .csel e =>
    { d := .dst [.vec] e.intWords, a := .arith clsVUI e.intWords, b := .arith clsVUI e.intWords, c := .src [.pred] }
  | .pand _ | .por _ | .pxor _ => { d := .dst [.pred], a := .src [.pred], b := .src [.pred] }
  | .pnot _ => { d := .dst [.pred], a := .src [.pred] }
  | .psetNe _ | .psetMask _ => { d := .dst [.pred], a := .src clsVUI, lit := some 2 }
  | .pget _ => { d := .dst clsVU, a := .flat [.pred] }
  | .voteAny _ | .voteAll _ | .voteEq _ => Form.lanes (.dst [.pred]) (.flat [.pred]) .never
  | .voteBall _ => Form.lanes (.dst clsVU) (.flat [.pred]) .never
  | .shfl e => Form.lanes (.dst [.vec] e.intWords) (.flat [.vec] e.intWords) (.src clsVUI)
  | .lred e => Form.lanes (.dst [.vec] e.intWords) (.flat [.vec] e.intWords) .never
  | .lscan e => Form.lanes (.dst [.vec] e.intWords) (.flat [.vec] e.intWords) .never [0, 1]
  | .xmatch e => Form.lanes (.dst [.vec]) (.flat [.vec] e.intWords) .never
  | .elect _ => Form.lanes (.dst [.pred]) .never .never
  | .fadd _ | .fsub _ | .fmul _ | .fmin _ | .fmax _ | .fminx _ | .fmaxx _ | .fscale _ | .fdiv _ => Form.fp2
  | .ffma _ | .fclamp _ | .fdot2 _ => Form.fp3
  | .fdot4 _ => Form.fp3 clsVU
  | .fcmp _ => { Form.fp2 with d := .dst [.pred], uniRule := false, ext := [0, 1] }
  | .frnd _ | .fclass _ | .rcp _ | .rsqrt _ | .sqrt _ | .exp2 _ | .log2 _ | .sin _ | .cos _ | .tanh _
  | .sigm _ | .gelu _ | .silu _ | .erf _ => Form.fp1
  | .cvt e =>
    { d := .dst clsVU, a := if e.cvtSrc = 8 then .src clsVUI else .arith clsVUI, b := .src [.none, .imm],
      uniRule := true, rm := [0, 1, 2, 3, 4, 5, 6], ext := [0, 1, 2, 3] }
  | .cvtSr _ => { d := .dst [.vec], a := .arith clsVU, b := .src [.none, .imm] }
  | .mxq _ => { d := .dst [.vec], a := .arith [.vec], e := .dst clsVU, rm := rmRound }
  | .mxd _ => { d := .dst [.vec], a := .arith clsVU, b := .src clsVUI, c := .src [.none, .imm] }
  | .rand _ => { d := .dst [.vec] }
  | .ld e => Form.mem (.dst [.vec] (sizeWords e.lo4)) clsVUI e.scOfKind 3
  | .st e => Form.mem (.dst clsVU (sizeWords e.lo4)) clsVUI e.scOfKind 3
  | .ldu e => Form.mem (.dst [.uni] (sizeWords e.lo4)) clsUI e.scOfKind 3
  | .lds e => { d := .dst [.vec] (sizeWords e.lo4), a := .src clsVUI, b := .src clsUI, lit := some 3 }
  | .sts e => { d := .dst clsVU (sizeWords e.lo4), a := .src clsVUI, b := .src clsUI, lit := some 3 }
  | .ldc e =>
    { d := .dst [.vec] (sizeWords e.lo4), a := .src clsVUI, b := .src clsVUI, c := .src clsUI, lit := some 4 }
  | .stc e =>
    { d := .dst clsVU (sizeWords e.lo4), a := .src clsVUI, b := .src clsVUI, c := .src clsUI, lit := some 4 }
  | .ldfe _ => { d := .dst [.vec], a := .src clsRank, b := .src clsVUI, c := .src clsUI, lit := some 4 }
  | .stfe _ => { d := .dst clsVU, a := .src clsRank, b := .src clsVUI, c := .src clsUI, lit := some 4 }
  | .fsetEmpty _ | .fsetFull _ => { a := .src clsRank, b := .src clsVUI, c := .src clsUI, lit := some 4 }
  | .cbcfg _ => { a := .src clsUI, b := .src clsUI, c := .src clsUI, e := .src clsUI }
  | .cbtake _ | .cbtakeFill _ => { d := .dst [.uni], a := .src clsUI }
  | .cbgive _ | .cbgiveFill _ => { a := .src clsUI }
  | .pfL2 _ | .pfL1 _ | .cinv _ | .cwb _ => Form.mem .never clsVUI 0 0
  | .cinvAll _ | .cwbAll _ => { a := .off, b := .off, c := .off }
  | .atom e => Form.atomic (.dst [.vec] e.atomWords) .buf (.src clsVU e.atomData) 3 [0, 1, 2, 3] [0]
  | .atoms e => Form.atomic (.dst [.vec] e.atomWords) (.src clsRank) (.src clsVU e.atomData) 0 [0, 1, 2, 3] [0]
  | .red e => Form.atomic .never .buf (.src clsVU e.atomData) 3 [0, 2] [0]
  | .reds e => Form.atomic .never (.src clsRank) (.src clsVU e.atomData) 0 [0, 2] [0]
  | .xadd e => Form.atomic .never .buf (.src clsVUI) 3 [0, 2] (if e.mod = 1 then [0, 5] else [0])
  | .fenceAcq _ | .fenceRel _ | .fenceAr _ => { sc := 5 }
  | .qfence _ | .bar _ | .bara _ | .barw _ => { a := .src [.imm] }
  | .cbar _ | .fbar _ => {}
  | .waddr _ =>
    { d := .dst clsUI, a := .buf, b := .src clsUI, c := .src clsUI, e := .src clsUI }
  | .fgive _ =>
    { d := .dst [.pred], a := .src clsUI, b := .src clsUI, c := .src clsUI,
      e := { Slot.src [.uni] with anyNum := true } }
  | .fclaimSync _ | .fclaimSet _ => { d := .dst [.pred], a := .src [.uni] }
  | .fwin _ => { d := .dst [.uni] }
  | .mma _ => { d := .dst [.acc], a := .src [.tile], b := .src clsUI, lit := some 3 }
  | .lease _ | .unlease _ => {}
  | .azero _ => { d := .dst [.acc] }
  | .adrain e =>
    { d := .dst [.none, .uni], a := .src [.acc], b := if e.hi2 = 3 then .src [.tile] else .buf,
      c := if e.hi2 = 3 then .off else .src clsUI,
      e := if e.hi2 = 3 then .off else if e.hi2 = 2 then .src [.uni] 2 else .src clsUI,
      ext := [0, 1], rm := rmRound }
  | .aswap _ => { d := .dst [.acc], a := .src [.acc] }
  | .ald _ | .ast _ => { d := .dst [.acc], a := .buf, b := .src clsUI, c := .src clsUI }
  | .aflag _ => { d := .dst [.uni], a := .src [.acc] }
  | .tld e | .tst e => Form.rows (.dst [.tile]) e
  | .tcvt _ => { d := .dst [.tile], a := .src [.tile], rm := rmRound }
  | .bld e | .bldBc e => Form.rows (.dst clsUI) e
  | .cp e => Form.copy e (.src clsUI)
  | .cpg e | .cps e | .cp2d e => Form.copy e (.src [.uni] 4)
  | .cpcb _ => { d := .dst clsUI, a := .buf, b := .src clsUI, e := .src clsUI, sc := 5, ch := 3 }
  | .cpw _ => { d := .dst [.uni], a := .src clsUI, sc := 5, ch := 3 }
  | .bwst e => { d := .dst [.vec] (2 ^ e.mod.toNat), a := .src clsUI }
  | .bwld e => { d := .dst [.vec] (2 ^ e.mod.toNat), a := .src clsUI, b := .src clsVUI }
  | .bwbar _ => { d := .dst [.uni] }
  | .bwslot _ => { d := .dst [.uni], a := .src clsUI }
  | .bwslotN _ => { d := .dst [.uni], a := .off }
  | .am _ =>
    { a := .src clsUI, b := .src clsUI, c := { Slot.src [.uni] with align := 8 }, e := .src clsUI, sc := 5 }
  | .put e => Form.oneSided .bufD (.endpoint e.mod.toNat false) (.src clsUI)
  | .putsig e => Form.oneSided .bufD (.endpoint e.mod.toNat false) (.src [.uni] 4)
  | .get e => Form.oneSided (.endpoint e.mod.toNat true) .buf (.src clsUI)
  | .app _ => { d := .dst [.vec], a := .buf, b := .src clsVUI, c := .buf, e := .src clsVUI, sc := 5 }
  | .coll _ => { a := .buf, b := .src clsUI, sc := 5 }
  | .collw _ | .collwTest _ => { d := .dst [.uni], a := .buf, b := .src clsUI, sc := 5 }
  | .sigw _ => { a := .buf, b := .src clsUI, c := .src clsUI, e := .src clsUI, sc := 5 }
  | .tspawn _ => { d := .dst [.uni], a := .buf, b := .src clsUI }
  | .tcommit _ | .rttResume _ | .rttRetry _ | .rttEnd _ => {}
  | .nemit _ => { d := .dst [.vec], a := .src clsUI }
  | .rdr _ => { d := { Slot.dst [.vec] with align := 16 }, a := .src clsVU }
  | .trap _ | .bkpt _ | .halt _ => { a := .src clsUI }
  | .srd e => { d := .dst clsVU (specWords e.a.num.toNat), a := .src [.spec] }
  | .swr _ => { d := .dst [.spec], a := .src clsUI }
  | .fwcallEcho _ | .fwcallFeatureVector _ | .fwcallLog _ | .fwcallNoService _ =>
    { d := .dst [.uni] 8, a := .src clsUI, b := .src [.uni] 8 }
  | .illegalInstruction _ | .fetchOutsideCode | .resultWriteback _ | .napExpiry _ | .waddrTimeout _
  | .trapEntry _ | .loadResponse _ | .requestDispatch _ | .homeSliceRequest _ | .zunosPacket _
  | .putsigSignal _ | .appRowStore _ | .remoteTimeout _ | .matrixOperation _ | .leaseGrant _ | .muleCopy _
  | .bsliceOperation _ | .msgOperation _ | .bellwetherBeat _ _ | .beatCrcError _
  | .bellwetherChannelTest _ _ | .layerSleep _ | .layerWake _ | .collectiveStart _ | .collectivePacket _
  | .collectiveReturn _ | .collectiveComplete _ | .collectiveTimeout _ | .combinationTimeout _
  | .amDelivery _ | .henDeposit _ | .henFlush _ _ | .nodeRecord _ | .gatherTimerLapse _ | .taskStart _
  | .taskCommit _ | .teamDescend _ | .teamAdmission _ | .teamSteal _ _ | .teamEnd _ | .launchComplete _
  | .watchdogExpiry _ | .kick _ | .launch _ | .barrier _ | .signal _ | .wait _ | .waitRecheck _ | .close _
  | .idleTimeout _ | .qcbSaveComplete _ | .eprioAgeing _ | .admissionWaitPreempt _ | .preemptionStop _
  | .restore _ | .clusterStageRelease _ | .packageReset | .coolantFlow _ | .thermalThrottle _
  | .thermalStop _ _ | .noiseSourceOffline _ | .attest | .accept | .pair | .register | .unregister
  | .plimit | .preempt | .inval | .aperture | .update | .retire | .mailboxUnknownCommand _
  | .hostWindowWrite _ _ | .sliceRemapDrained | .inServiceChangeStart | .pciePostedWrite _ _ _
  | .pcieRead _ _ | .appCoreAccess _ | .loopFlitError _ _ | .loopFail _ _ | .bridgeCrcError _ _
  | .bridgeRetrain _ _ _ | .zunosCrcError _ | .portRetrain _ _ | .portDead _ | .correctedError _
  | .patrolScrub _ _ | .uncorrectableError _ _ _ | .heartbeat | .heartbeatTimeout | .core0Failure
  | .standbyTakeover | .thermalThrottleEnd _ => {}

/-! ## Checks 3 to 5 of R169 -/

/-- What bounds the register numbers of a fibre: its window, its allotment, and the accumulators that its team may
name (R70). -/
structure Limits where
  window : Nat
  allot : Nat
  accs : Nat
deriving DecidableEq, Repr

/-- An operand field of 22 zero bits. -/
def Operand.zero : Operand := ⟨.none, 0, 0, 0, false, false⟩

/-- The 19 bits of an immediate, bits 21:3 of the field (R170). -/
def Operand.imm (o : Operand) : Nat :=
  o.num.toNat + 256 * o.pat.toNat + 2048 * o.arg.toNat + 2 ^ 17 * b2n o.neg + 2 ^ 18 * b2n o.abs

/-- The number one above the greatest of a class (R70, R80). -/
def Limits.of (lim : Limits) : Cls → Nat
  | .vec => lim.window
  | .uni => lim.allot
  | .pred => 64
  | .tile => 16
  | .acc => lim.accs
  | .spec => 23
  | .none | .imm => 0

/-- Whether the number of a register operand is permitted (R70, R74). -/
def Slot.numOk (sl : Slot) (lim : Limits) (o : Operand) : Bool :=
  sl.anyNum ||
    (if o.cls = .vec ∨ o.cls = .uni then
      o.num.toNat % sl.align = 0 ∧ o.num.toNat + sl.words ≤ lim.of o.cls
    else o.num.toNat < lim.of o.cls)

/-- Whether the pattern and its argument are permitted (R171, R175, R176). -/
def Slot.patOk (sl : Slot) (o : Operand) : Bool :=
  if sl.use = .dst ∨ o.cls = .tile ∨ o.cls = .acc ∨ o.cls = .spec ∨ sl.pat0 then o.pat = 0 ∧ o.arg = 0
  else o.pat ≠ 7 ∧ ((o.pat = 0 ∨ o.pat = 4) → o.arg = 0)

/-- Whether NEG and ABS are permitted (R172). -/
def Slot.modsOk (sl : Slot) (o : Operand) : Bool :=
  if sl.use = .src ∧ o.cls = .pred then !o.abs
  else if sl.use = .src ∧ (o.cls = .vec ∨ o.cls = .uni) ∧ sl.mods then true
  else !o.neg && !o.abs

/-- Check 4 on one field: 0 when it passes, else DETAIL (R169, R171). -/
def Slot.check (sl : Slot) (lim : Limits) (uniform : Bool) (o : Operand) : Nat :=
  match sl.use with
  | .never => 0
  | .off => if o = Operand.zero then 0 else 1
  | .dst | .src =>
    if o.cls ∉ sl.cls then 1
    else if o.cls = .none then (if o = Operand.zero then 0 else 1)
    else if uniform ∧ sl.use = .src ∧ (o.cls = .vec ∨ o.cls = .pred) then 1
    else if o.cls = .imm then 0
    else if !sl.numOk lim o then 2
    else if !sl.patOk o then 3
    else if !sl.modsOk o then 4
    else 0

/-- The fields in the order of FIELD: D 1, A 2, B 3, C 4, E 5 (R83). -/
def Enc.field (e : Enc) : Nat → Operand
  | 1 => e.d
  | 2 => e.a
  | 3 => e.b
  | 4 => e.c
  | _ => e.e

/-- The slot of a field. -/
def Form.slot (f : Form) : Nat → Slot
  | 1 => f.d
  | 2 => f.a
  | 3 => f.b
  | 4 => f.c
  | _ => f.e

/-- Slots per register of a format code (R233). -/
def slotCount (code : Nat) : Nat :=
  if code ∈ [0, 9, 10] then 1 else if code ∈ [1, 2, 11, 12] then 2 else 4

/-- The slots operand of `cvt` and `cvt.sr` (R234, R237). -/
def slotsOk (o : Operand) (src dst : Nat) : Bool :=
  o.cls = .none || (o.imm < 16 ∧ o.imm % 4 < slotCount src ∧ o.imm / 4 < slotCount dst)

/-- What check 4 asks of one field beyond its slot: 0, else DETAIL. -/
def Instr.extra : Instr → Nat → Nat
  | .nopEntry e, 2 => if e.a.imm % 8 = 0 ∧ 8 ≤ e.a.imm ∧ e.a.imm ≤ 256 then 0 else 2
  | .nopEntry e, 3 => if e.b.imm % 8 = 0 ∧ 8 ≤ e.b.imm ∧ e.b.imm ≤ 128 then 0 else 2
  | .qfence e, 2 => if e.a.imm < 128 then 0 else 2
  | .bar e, 2 | .bara e, 2 | .barw e, 2 => if e.a.imm < 8 then 0 else 2
  | .cvt e, 3 => if slotsOk e.b e.cvtSrc e.lo4 then 0 else 9
  | .cvtSr e, 3 => if slotsOk e.b 0 e.lo4 then 0 else 9
  | .mxd e, 4 => if e.c.cls = .none ∨ e.c.imm < 4 then 0 else 9
  | .tcvt e, 2 => if e.var ≤ 2 ∧ (e.a.num.toNat % 2 = 1 ∨ 15 ≤ e.a.num.toNat) then 2 else 0
  | .adrain e, 3 =>
    if e.hi2 = 3 ∧ 16 < e.b.num.toNat + (if 3 ≤ e.lo4 then 2 else 4) then 2 else 0
  | .swr e, 1 => if e.d.num.toNat ∈ [19, 20, 22] then 0 else 2
  | _, _ => 0

/-- The 32-bit literal (R174). -/
def Enc.literal (e : Enc) : Nat := e.c.imm % 2 ^ 19 + 2 ^ 19 * (e.e.imm % 2 ^ 13)

/-- The literal's fields: 0 when they keep R174, else the FIELD of the first faulty of C, E and the position. -/
def Enc.litFault (e : Enc) (pos : Nat) : Nat :=
  if e.c.cls ≠ .imm then 4
  else if e.e.cls ≠ .imm ∨ 2 ^ 13 ≤ e.e.imm then 5
  else if pos ≠ 4 ∧ ((e.field pos).cls ≠ .imm ∨ (e.field pos).imm ≠ 0) then pos
  else 0

/-- Check 3 of R169. -/
def Form.check3 (f : Form) (e : Enc) : Bool :=
  e.rsv = 0 ∧ e.ext3 ∈ f.ext ∧ (e.hasLit → f.lit.isSome) ∧
  ([1, 2, 3, 4, 5].all fun k =>
    (f.slot k).use ≠ .never ∨ (e.field k) = Operand.zero ∨ (e.hasLit ∧ (k = 4 ∨ k = 5)))

/-- Check 4 of R169 on one field: 0, else DETAIL. -/
def Instr.check4 (i : Instr) (f : Form) (lim : Limits) (e : Enc) (k : Nat) : Nat :=
  if e.hasLit ∧ (k = 4 ∨ k = 5 ∨ f.lit = some k) then 0
  else if f.litOnly ∧ k = 2 then 1
  else
    let n := (f.slot k).check lim (f.uniRule && decide (e.d.cls = .uni)) (e.field k)
    if n ≠ 0 then n else i.extra k

/-- Check 5 of R169: 0, else DETAIL. -/
def Form.check5 (f : Form) (e : Enc) : Nat :=
  if f.sc < e.sc.toNat then 5 else if e.rm.toNat ∉ f.rm then 6 else if f.ch < e.ch.toNat then 7 else 0

/-- Word bits 15:0 of an instruction: OP and MOD. -/
def Enc.low16 (e : Enc) (op : Nat) : Nat := op + 1024 * e.mod.toNat

/-- Checks 3 to 5 of R169 in order: the cause, FIELD and DETAIL of the first that fails. -/
def Instr.fault (i : Instr) (lim : Limits) : Option (Nat × Nat × Nat) :=
  match i.parts with
  | none => none
  | some (op, e) =>
    let f := i.form
    if !f.check3 e then some (1, 0, e.low16 op)
    else
      match [1, 2, 3, 4, 5].find? (fun k => decide (i.check4 f lim e k ≠ 0)) with
      | some k => some (2, k, i.check4 f lim e k)
      | none =>
        match f.lit with
        | some pos =>
          if e.hasLit ∧ e.litFault pos ≠ 0 then some (2, e.litFault pos, 8)
          else if f.check5 e ≠ 0 then some (2, 0, f.check5 e) else none
        | none => if f.check5 e ≠ 0 then some (2, 0, f.check5 e) else none

/-- Whether an opcode is path-A-only: the control, cross-lane, synchronisation and fibres, matrix, copy and stack
channel, message and system groups (R53, R182). -/
def pathAOnly (op : Nat) : Bool :=
  (0x001 ≤ op && op ≤ 0x00B) || (0x106 ≤ op && op ≤ 0x10B) || (0x2C0 ≤ op && op ≤ 0x2C7)
    || (0x2D0 ≤ op && op ≤ 0x2D2) || (0x300 ≤ op && op ≤ 0x30D) || (0x340 ≤ op && op ≤ 0x345)
    || (0x360 ≤ op && op ≤ 0x363) || (0x380 ≤ op && op ≤ 0x387) || (0x3A0 ≤ op && op ≤ 0x3A3)
    || (0x3C0 ≤ op && op ≤ 0x3C6)

/-- Whether an opcode is of the memory or atomic group (R53, R182). -/
def isMemory (op : Nat) : Bool := (0x200 ≤ op && op ≤ 0x20F) || (0x280 ≤ op && op ≤ 0x284)

/-- Whether every operand of an encoding is uniform or an immediate (R73). -/
def Enc.allUniform (e : Enc) : Bool :=
  [e.d, e.a, e.b, e.c, e.e].all fun o => decide (o.cls = .none ∨ o.cls = .uni ∨ o.cls = .imm)

/-- Whether an instruction runs once on the uniform datapath (R73, R195, R222). -/
def Instr.isUniform (i : Instr) : Bool :=
  match i.parts with
  | some (_, e) => e.allUniform
  | none => false

end Sys2Proof
end

