-- ==== Sys2Proof/Machine/Fields.lean ====
section
/-! DEFINITION. The bit places of the instruction word (R168) and of an operand field (R170), read and written. -/

namespace Sys2Proof

/-- The class of a code 0 to 7 (R170). -/
def Cls.ofBits (b : BitVec 3) : Cls :=
  match b.toNat with
  | 0 => .none
  | 1 => .vec
  | 2 => .uni
  | 3 => .pred
  | 4 => .tile
  | 5 => .acc
  | 6 => .spec
  | _ => .imm

/-- The code of a class (R170). -/
def Cls.toBits : Cls → BitVec 3
  | .none => 0
  | .vec => 1
  | .uni => 2
  | .pred => 3
  | .tile => 4
  | .acc => 5
  | .spec => 6
  | .imm => 7

/-- An operand field: CLASS 2:0, NUM 10:3, PAT 13:11, ARG 19:14, NEG 20, ABS 21 (R170). -/
def Operand.ofBits (b : BitVec 22) : Operand :=
  { cls := Cls.ofBits (b.extractLsb' 0 3), num := b.extractLsb' 3 8, pat := b.extractLsb' 11 3,
    arg := b.extractLsb' 14 6, neg := b.getLsbD 20, abs := b.getLsbD 21 }

/-- The 22 bits of an operand field, the highest first (R170). -/
def Operand.toBits (o : Operand) : BitVec 22 :=
  BitVec.ofBool o.abs ++ BitVec.ofBool o.neg ++ o.arg ++ o.pat ++ o.num ++ o.cls.toBits

/-- OP, bits 9:0 of the word (R168). -/
def opOf (w : BitVec 160) : Nat := (w.extractLsb' 0 10).toNat

/-- The other fields of the word, by the table of R168. -/
def Enc.ofBits (w : BitVec 160) : Enc :=
  { mod := w.extractLsb' 10 6, ga := w.extractLsb' 16 7, gb := w.extractLsb' 23 7, gc := w.getLsbD 30,
    sw := w.getLsbD 31, d := Operand.ofBits (w.extractLsb' 32 22), a := Operand.ofBits (w.extractLsb' 54 22),
    b := Operand.ofBits (w.extractLsb' 76 22), c := Operand.ofBits (w.extractLsb' 98 22),
    e := Operand.ofBits (w.extractLsb' 120 22), ch := w.extractLsb' 142 3, st := w.extractLsb' 145 3,
    sc := w.extractLsb' 148 3, rm := w.extractLsb' 151 3, ext := w.extractLsb' 154 4,
    rsv := w.extractLsb' 158 2 }

/-- The 160 bits of an instruction, the highest first (R168). -/
def Enc.toBits (op : Nat) (e : Enc) : BitVec 160 :=
  e.rsv ++ e.ext ++ e.rm ++ e.sc ++ e.st ++ e.ch ++ e.e.toBits ++ e.c.toBits ++ e.b.toBits ++ e.a.toBits
    ++ e.d.toBits ++ BitVec.ofBool e.sw ++ BitVec.ofBool e.gc ++ e.gb ++ e.ga ++ e.mod ++ BitVec.ofNat 10 op

end Sys2Proof
end

