-- ==== Sys2Proof/Machine/Flags.lean ====
section
/-! DEFINITION. Number formats, exact values, the one rounding and the flags of `%fpflags` (R90 to R105). -/

namespace Sys2Proof.Machine

/-! ## Flags as a mask in the bit order of R82 -/

/-- Inexact. -/
def NX : Nat := 1
/-- Underflow. -/
def UF : Nat := 2
/-- Overflow. -/
def OF : Nat := 4
/-- Division by zero. -/
def DZ : Nat := 8
/-- Invalid operation. -/
def NV : Nat := 16

/-- A flag when a condition holds. -/
def flagIf (c : Bool) (f : Nat) : Nat := if c then f else 0

/-! ## Formats (R90) -/

/-- The NaNs of a format: none, those of an all-ones exponent, or the one pattern of E4M3. -/
inductive NanKind where
  | none | ieee | e4m3
deriving DecidableEq, Repr

/-- A floating-point format: exponent bits, mantissa bits, bias, its NaNs. A format has infinity exactly when its
NaNs are those of an all-ones exponent. -/
structure Fmt where
  eb : Nat
  mb : Nat
  bias : Nat
  nans : NanKind
deriving DecidableEq, Repr

/-- FP32. -/
def Fmt.f32 : Fmt := ⟨8, 23, 127, .ieee⟩
/-- BF16. -/
def Fmt.bf16 : Fmt := ⟨8, 7, 127, .ieee⟩
/-- FP16. -/
def Fmt.f16 : Fmt := ⟨5, 10, 15, .ieee⟩
/-- FP8 E4M3. -/
def Fmt.e4m3 : Fmt := ⟨4, 3, 7, .e4m3⟩
/-- FP8 E5M2. -/
def Fmt.e5m2 : Fmt := ⟨5, 2, 15, .ieee⟩
/-- FP6 E3M2. -/
def Fmt.e3m2 : Fmt := ⟨3, 2, 3, .none⟩
/-- FP6 E2M3. -/
def Fmt.e2m3 : Fmt := ⟨2, 3, 1, .none⟩
/-- FP4 E2M1. -/
def Fmt.e2m1 : Fmt := ⟨2, 1, 1, .none⟩

/-- The format of a code 0 to 7 of R233. -/
def Fmt.ofCode : Nat → Fmt
  | 0 => .f32
  | 1 => .bf16
  | 2 => .f16
  | 3 => .e4m3
  | 4 => .e5m2
  | 5 => .e3m2
  | 6 => .e2m3
  | _ => .e2m1

/-- All the bits of a format. -/
def Fmt.bits (f : Fmt) : Nat := 1 + f.eb + f.mb

/-- The place of the sign bit. -/
def Fmt.signBit (f : Fmt) : Nat := f.eb + f.mb

/-- Whether the format has infinity. -/
def Fmt.hasInf (f : Fmt) : Bool := f.nans = .ieee

/-- The encoding of +∞ in a format that has it. -/
def Fmt.infEnc (f : Fmt) : Nat := (2 ^ f.eb - 1) * 2 ^ f.mb

/-- The encoding of the largest finite value. -/
def Fmt.maxEnc (f : Fmt) : Nat :=
  match f.nans with
  | .ieee => f.infEnc - 1
  | .e4m3 => 2 ^ (f.eb + f.mb) - 2
  | .none => 2 ^ (f.eb + f.mb) - 1

/-- The canonical NaN (R92); +0 in a format without NaN (R96). -/
def Fmt.nanEnc (f : Fmt) : Nat :=
  match f.nans with
  | .ieee => f.infEnc + 2 ^ (f.mb - 1)
  | .e4m3 => 2 ^ (f.eb + f.mb) - 1
  | .none => 0

/-- The sign bit in place. -/
def Fmt.sign (f : Fmt) (neg : Bool) : Nat := if neg then 2 ^ f.signBit else 0

/-- The exponent of the unit of the smallest subnormal. -/
def Fmt.qmin (f : Fmt) : Int := 1 - f.bias - f.mb

/-! ## Values -/

/-- An exact value: NaN (signalling or quiet), an infinity, or ±m × 2^e with its sign kept on zero. -/
inductive Val where
  | nan (sig : Bool)
  | inf (neg : Bool)
  | fin (neg : Bool) (m : Nat) (e : Int)
deriving DecidableEq, Repr

/-- The exact value of a bit pattern (R90, R92, R193 Value). -/
def Fmt.value (f : Fmt) (b : Nat) : Val :=
  let s := bitN b f.signBit
  let E := b / 2 ^ f.mb % 2 ^ f.eb
  let M := b % 2 ^ f.mb
  if f.nans = .ieee ∧ E = 2 ^ f.eb - 1 then
    (if M = 0 then .inf s else .nan (decide (M < 2 ^ (f.mb - 1))))
  else if f.nans = .e4m3 ∧ b % 2 ^ f.signBit = 2 ^ f.signBit - 1 then .nan false
  else if E = 0 then .fin s M f.qmin
  else .fin s (2 ^ f.mb + M) (f.qmin + E - 1)

/-- A signalling NaN. -/
def Val.isSnan : Val → Bool
  | .nan s => s
  | _ => false

/-- Any NaN. -/
def Val.isNan : Val → Bool
  | .nan _ => true
  | _ => false

/-- Any infinity. -/
def Val.isInf : Val → Bool
  | .inf _ => true
  | _ => false

/-- A zero of either sign. -/
def Val.isZero : Val → Bool
  | .fin _ m _ => m = 0
  | _ => false

/-- The sign. -/
def Val.sgn : Val → Bool
  | .nan _ => false
  | .inf s => s
  | .fin s _ _ => s

/-- NV for a signalling NaN operand (R98). -/
def snanFlag (vs : List Val) : Nat := flagIf (vs.any Val.isSnan) NV

/-- m × 2^e as a fraction of naturals. -/
def frac (m : Nat) (e : Int) : Nat × Nat := if 0 ≤ e then (m * 2 ^ e.toNat, 1) else (m, 2 ^ (-e).toNat)

/-- The signed integer of ±m × 2^e over 2^q, for q at most e. -/
def Val.over (v : Val) (q : Int) : Int :=
  match v with
  | .fin s m e => let x : Int := (m * 2 ^ (e - q).toNat : Nat); if s then -x else x
  | _ => 0

/-- The exponent of a finite value; 0 otherwise. -/
def Val.exp : Val → Int
  | .fin _ _ e => e
  | _ => 0

/-- A value from a signed integer times 2^q; `zneg` is the sign of an exact zero. -/
def Val.ofInt (x : Int) (q : Int) (zneg : Bool) : Val :=
  if x = 0 then .fin zneg 0 q else .fin (decide (x < 0)) x.natAbs q

/-! ## Rounding -/

/-- floor(log2 (n / d)) for positive n and d. -/
def floorLog2 (n d : Nat) : Int :=
  let k : Int := (bitLen n : Int) - bitLen d
  -- n / d lies in (2 ^ (k - 1), 2 ^ (k + 1))
  if 0 ≤ k then (if d * 2 ^ k.toNat ≤ n then k else k - 1)
  else (if d ≤ n * 2 ^ (-k).toNat then k else k - 1)

/-- n / d in units of 2^q, truncated, and whether the rest is zero, below, at or above one half (0 to 3). -/
def unitsOf (n d : Nat) (q : Int) : Nat × Nat :=
  let N := if 0 ≤ q then n else n * 2 ^ (-q).toNat
  let D := if 0 ≤ q then d * 2 ^ q.toNat else d
  let r := N % D
  (N / D, if r = 0 then 0 else if 2 * r < D then 1 else if 2 * r = D then 2 else 3)

/-- Whether a truncated magnitude goes up by one unit: mode 0 RNE, 1 RZ, 2 RU, 3 RD (R94). -/
def roundsUp (mode : Nat) (neg : Bool) (k rest : Nat) : Bool :=
  if rest = 0 then false
  else match mode with
    | 0 => rest = 3 || (rest = 2 && k % 2 = 1)
    | 1 => false
    | 2 => !neg
    | _ => neg

/-- n / d rounded to units of 2^q. -/
def roundUnits (mode : Nat) (neg : Bool) (n d : Nat) (q : Int) : Nat :=
  let p := unitsOf n d q
  if roundsUp mode neg p.1 p.2 then p.1 + 1 else p.1

/-- Whether a rounding that overflows delivers infinity (R95) and not the largest finite value (R95, R96, R97). -/
def overflowsToInf (f : Fmt) (mode : Nat) (sat neg : Bool) : Bool :=
  f.hasInf && !sat && (match mode with
    | 0 => true
    | 1 => false
    | 2 => !neg
    | _ => neg)

/-- Delivers the positive magnitude n / d with its sign in a format: the bits and the flags (R94 to R98). -/
def Fmt.roundQ (f : Fmt) (mode : Nat) (sat neg : Bool) (n d : Nat) : Nat × Nat :=
  if n = 0 then (f.sign neg, 0)
  else
    let qu := floorLog2 n d - f.mb
    let q := max qu f.qmin
    let k := roundUnits mode neg n d q
    let nx := decide ((unitsOf n d q).2 ≠ 0)
    let enc := (q - f.qmin).toNat * 2 ^ f.mb + k
    if f.maxEnc < enc then
      (f.sign neg + (if overflowsToInf f mode sat neg then f.infEnc else f.maxEnc), OF + NX)
    else
      -- tiny: rounded with unbounded exponent range, below the smallest normal 2^(qmin + mb) (R98)
      let ku := roundUnits mode neg n d qu
      let tiny := decide (qu < f.qmin) && decide (ku < 2 ^ (f.qmin - qu).toNat * 2 ^ f.mb)
      (f.sign neg + enc, flagIf nx NX + flagIf (tiny && nx) UF)

/-- Delivers a value in a format: NaN as the canonical NaN, or +0 with NV where there is none; an infinity as it is,
or as the largest finite value with OF (R92, R95 to R97). -/
def Fmt.round (f : Fmt) (mode : Nat) (sat : Bool) : Val → Nat × Nat
  | .nan _ => (f.nanEnc, flagIf (f.nans = .none) NV)
  | .inf neg =>
    if f.hasInf && !sat then (f.sign neg + f.infEnc, 0) else (f.sign neg + f.maxEnc, OF)
  | .fin neg m e => f.roundQ mode sat neg (frac m e).1 (frac m e).2

/-! ## Exact operations (R225, R230) -/

/-- The exact sum, and NV for ∞ − ∞. An exact zero of operands of opposite sign is +0, and −0 under RD. -/
def Val.add (mode : Nat) (a b : Val) : Val × Nat :=
  match a, b with
  | .nan s, _ => (.nan s, 0)
  | _, .nan s => (.nan s, 0)
  | .inf s, .inf t => if s = t then (.inf s, 0) else (.nan false, NV)
  | .inf s, .fin _ _ _ => (.inf s, 0)
  | .fin _ _ _, .inf t => (.inf t, 0)
  | .fin s m e, .fin t n g =>
    let q := min e g
    let x := (Val.fin s m e).over q + (Val.fin t n g).over q
    (Val.ofInt x q (if s = t then s else mode = 3), 0)

/-- The exact product, and NV for 0 × ∞. -/
def Val.mul (a b : Val) : Val × Nat :=
  match a, b with
  | .nan s, .inf _ => (.nan s, 0)
  | .nan s, _ => (.nan s, 0)
  | _, .nan s => (.nan s, 0)
  | .inf s, .inf t => (.inf (s != t), 0)
  | .inf s, .fin t n _ => if n = 0 then (.nan false, NV) else (.inf (s != t), 0)
  | .fin s m _, .inf t => if m = 0 then (.nan false, NV) else (.inf (s != t), 0)
  | .fin s m e, .fin t n g => (.fin (s != t) (m * n) (e + g), 0)

/-- The opposite value. -/
def Val.neg : Val → Val
  | .nan s => .nan s
  | .inf s => .inf !s
  | .fin s m e => .fin (!s) m e

/-- Compares two values that are no NaN: −1, 0 or 1; −0 equals +0. -/
def Val.cmp (a b : Val) : Int :=
  match a, b with
  | .inf s, .inf t => if s = t then 0 else if s then -1 else 1
  | .inf s, _ => if s then -1 else 1
  | _, .inf t => if t then 1 else -1
  | _, _ =>
    let q := min a.exp b.exp
    let x := a.over q - b.over q
    if x < 0 then -1 else if x = 0 then 0 else 1

/-- The order of `fmin` and `fmax`: −0 below +0 (R226). -/
def Val.below (a b : Val) : Bool :=
  if a.isZero && b.isZero then a.sgn && !b.sgn else decide (a.cmp b < 0)

/-! ## Integers and floating point (R101) -/

/-- A magnitude n / d rounded to an integer with its sign, and whether it was inexact. -/
def roundToInt (mode : Nat) (neg : Bool) (n d : Nat) : Int × Bool :=
  let k : Int := (roundUnits mode neg n d 0 : Nat)
  (if neg then -k else k, decide ((unitsOf n d 0).2 ≠ 0))

/-- A value as an integer of n bits: out of range gives the end of the range with NV, NaN gives 0 with NV (R101). -/
def Val.toInt (mode : Nat) (signed : Bool) (n : Nat) (v : Val) : Int × Nat :=
  let lo : Int := if signed then -(2 ^ (n - 1) : Nat) else 0
  let hi : Int := if signed then (2 ^ (n - 1) : Nat) - 1 else (2 ^ n : Nat) - 1
  match v with
  | .nan _ => (0, NV)
  | .inf s => (if s then lo else hi, NV)
  | .fin s m e =>
    let r := roundToInt mode s (frac m e).1 (frac m e).2
    if r.1 < lo then (lo, NV) else if hi < r.1 then (hi, NV) else (r.1, flagIf r.2 NX)

/-- An integer as an exact value; zero is +0. -/
def Val.ofInteger (x : Int) : Val := Val.ofInt x 0 false

/-- An integral value in the same format, the sign kept; never NX (R228). -/
def Fmt.integral (f : Fmt) (mode : Nat) : Val → Nat
  | .nan _ => f.nanEnc
  | .inf s => f.sign s + f.infEnc
  | .fin s m e => (f.round 0 false (.fin s (roundUnits mode s (frac m e).1 (frac m e).2 0) 0)).1

/-! ## E8M0 (R91, R236) -/

/-- The value of an E8M0 byte. -/
def e8m0Value (b : Nat) : Val := if b = 255 then .nan false else .fin false 1 ((b : Int) - 127)

/-- FP32 to E8M0 (R236). DESIGN CHOICE (log 82): x is rounded to a power of two without a lower bound, and a result below 2^-127
raises UF, under RU and RNE too. -/
def toE8m0 (mode : Nat) (v : Val) : Nat × Nat :=
  match v with
  | .fin false m e =>
    if m = 0 then (255, NV)
    else
      let n := (frac m e).1
      let d := (frac m e).2
      let k := floorLog2 n d
      let rest := (unitsOf n d k).2
      -- between 2^k and 2^(k+1): the tie 1.5 × 2^k goes to the even byte
      let up := if rest = 0 then false
        else match mode with
          | 0 => rest = 3 || (rest = 2 && (k + 127) % 2 = 1)
          | 2 => true
          | _ => false
      let x := if up then k + 1 else k
      if 127 < x then (254, OF + NX)
      else if x < -127 then (0, UF + NX)
      else ((x + 127).toNat, flagIf (decide (rest ≠ 0)) NX)
  | _ => (255, NV)

/-! ## Stochastic rounding (R99) -/

/-- n / d in units of 2^q, away from zero when its fraction in units of 2^-24 and the draw reach one unit. -/
def srUnits (u n d : Nat) (q : Int) : Nat :=
  let lo := (unitsOf n d q).1
  if 2 ^ 24 ≤ (unitsOf n d (q - 24)).1 - lo * 2 ^ 24 + u then lo + 1 else lo

/-- `cvt.sr` of one element: u is 24 bits of noise. The result is tiny when the same draw, on the quantum of an unbounded exponent
range, gives less than the smallest normal (R98). DESIGN CHOICE (log 81): a rest below 2^-24 of the quantum, which leaves d at 0,
raises neither NX nor UF. -/
def Fmt.roundSr (f : Fmt) (u : Nat) : Val → Nat × Nat
  | .nan s => (f.nanEnc, flagIf (s || decide (f.nans = .none)) NV)
  | .inf s => f.round 0 false (.inf s)
  | .fin s m e =>
    let n := (frac m e).1
    let d := (frac m e).2
    if n = 0 then (f.sign s, 0)
    else
      let qu := floorLog2 n d - f.mb
      let q := max qu f.qmin
      let k := srUnits u n d q
      let enc := (q - f.qmin).toNat * 2 ^ f.mb + k
      -- d of R99 is not 0
      let nx := decide ((unitsOf n d (q - 24)).1 ≠ (unitsOf n d q).1 * 2 ^ 24)
      if f.maxEnc < enc then (f.sign s + f.maxEnc, OF + NX)
      else
        let tiny := decide (qu < f.qmin) && decide (srUnits u n d qu < 2 ^ (f.qmin - qu).toNat * 2 ^ f.mb)
        (f.sign s + enc, flagIf nx NX + flagIf (nx && tiny) UF)

/-! ## Microscaling blocks (R102 to R104) -/

/-- The unbiased exponent of the largest normal (R102). -/
def Fmt.emax (f : Fmt) : Int :=
  match f.nans with
  | .ieee => (2 ^ f.eb - 2 : Nat) - (f.bias : Int)
  | _ => (2 ^ f.eb - 1 : Nat) - (f.bias : Int)

/-- The exact value of an element under a scale byte (R103). -/
def mxValue (f : Fmt) (scale b : Nat) : Val :=
  if scale = 255 then .nan false
  else match f.value b with
    | .fin s m e => .fin s m (e + scale - 127)
    | v => v

/-- The larger of two magnitudes given as fractions. -/
def maxMag (a b : Nat × Nat) : Nat × Nat := if a.1 * b.2 < b.1 * a.2 then b else a

/-- The magnitude of a value as a fraction; 0 for NaN and infinity. -/
def Val.mag : Val → Nat × Nat
  | .fin _ m e => frac m e
  | _ => (0, 1)

/-- A quantised block: its scale byte, its elements, the flags of all elements, and whether it holds a NaN or an
infinity. -/
structure MxBlock where
  scale : Nat
  elems : List Nat
  flags : Nat
  bad : Bool
deriving DecidableEq, Repr

/-- Flags of a list, merged. -/
def orFlags : List Nat → Nat
  | [] => 0
  | f :: fs => f ||| orFlags fs

/-- Quantisation of a block (R104). -/
def mxQuantise (f : Fmt) (mode : Nat) (xs : List Val) : MxBlock :=
  if xs.any fun x => x.isNan || x.isInf then
    { scale := 255, elems := xs.map fun _ => 0, flags := 0, bad := true }
  else
    let m := xs.foldl (fun a x => maxMag a x.mag) (0, 1)
    let X : Int := if m.1 = 0 then -127 else min 127 (max (-127) (floorLog2 m.1 m.2 - f.emax))
    let rs := xs.map fun x => match x with
      | .fin s k e => f.round mode true (.fin s k (e - X))
      | v => f.round mode true v
    { scale := (X + 127).toNat, elems := rs.map Prod.fst, flags := orFlags (rs.map Prod.snd), bad := false }

end Sys2Proof.Machine
end

