-- ==== Sys2Proof/Machine/Sched.lean ====
section
/-! DEFINITION. The tables of the state, and a fibre's way through the states of R50: slots, current fibres, waking
and waiting (R41, R42, R46, R50, R54). -/

namespace Sys2Proof.Machine

/-! ## Tables -/

/-- A fibre by its name. -/
def State.fibre? (s : State) (f : Nat) : Option Fibre := s.fibres.find? fun x => x.id == f

/-- A team by its name. -/
def State.team? (s : State) (t : Nat) : Option Team := s.teams.find? fun x => x.id == t

/-- A launch by its name. -/
def State.launch? (s : State) (l : Nat) : Option Launch := s.launches.find? fun x => x.id == l

/-- A core; one that nothing has touched is as reset. -/
def State.core (s : State) (c : Nat) : Core := (s.cores.find? fun x => x.id == c).getD (Core.reset c)

/-- A tower. -/
def State.tower (s : State) (t : Nat) : Tower := (s.towers.find? fun x => x.id == t).getD (Tower.reset t)

/-- A layer, by its die. -/
def State.layer (s : State) (d : Nat) : Layer := (s.layers.find? fun x => x.id == d).getD (Layer.reset d)

/-- Changes a fibre. -/
def State.modFibre (s : State) (f : Nat) (g : Fibre → Fibre) : State :=
  { s with fibres := replaceBy (fun x => x.id == f) g s.fibres }

/-- Changes a team. -/
def State.modTeam (s : State) (t : Nat) (g : Team → Team) : State :=
  { s with teams := replaceBy (fun x => x.id == t) g s.teams }

/-- Changes a launch. -/
def State.modLaunch (s : State) (l : Nat) (g : Launch → Launch) : State :=
  { s with launches := replaceBy (fun x => x.id == l) g s.launches }

/-- Changes a core. -/
def State.modCore (s : State) (c : Nat) (g : Core → Core) : State :=
  { s with cores :=
      if s.cores.any fun x => x.id == c then replaceBy (fun x => x.id == c) g s.cores
      else s.cores ++ [g (Core.reset c)] }

/-- Changes a tower. -/
def State.modTower (s : State) (t : Nat) (g : Tower → Tower) : State :=
  { s with towers :=
      if s.towers.any fun x => x.id == t then replaceBy (fun x => x.id == t) g s.towers
      else s.towers ++ [g (Tower.reset t)] }

/-- Changes a layer. -/
def State.modLayer (s : State) (d : Nat) (g : Layer → Layer) : State :=
  { s with layers :=
      if s.layers.any fun x => x.id == d then replaceBy (fun x => x.id == d) g s.layers
      else s.layers ++ [g (Layer.reset d)] }

/-- Changes a user queue. -/
def State.modQueue (s : State) (q : Nat) (g : UQueue → UQueue) : State :=
  { s with queues := replaceBy (fun x => x.id == q) g s.queues }

/-- Changes a firmware or package register. -/
def State.modPkg (s : State) (g : Package → Package) : State := { s with pkg := g s.pkg }

/-- The free choice of the device at this step (log 1, log 7). -/
def State.pick (s : State) (salt : Nat) : Nat := Config.choose s.tick salt

/-! ## Places (R10, R17, R21) -/

/-- The die of a core. -/
def dieOf (core : Nat) : Nat := core / 96

/-- The tower of a core: six layers each. -/
def towerOf (core : Nat) : Nat := core / 96 / 6

/-- The layer of a core within its tower. -/
def layerOf (core : Nat) : Nat := core / 96 % 6

/-! ## Kernels (R341) -/

/-- What an unlisted kernel index holds. -/
def Kernel.blank : Kernel :=
  { name := [], any := false, sig := 0, entry := 0, count := 0, handlerIp := 0xFFFFFFFF, desc := 0, cbufs := [] }

/-- The kernel of an index in a launch's object. -/
def Launch.kernelAt (l : Launch) (k : Nat) : Kernel := SMap.get Kernel.blank l.kernels k

/-- Bits hi:lo of the descriptor. -/
def Kernel.field (k : Kernel) (hi lo : Nat) : Nat := bits k.desc.toNat hi lo

/-- Lease length: 0 for no `.lease`. -/
def Kernel.llen (k : Kernel) : Nat := k.field 49 41

/-- Whether a cause reaches the handler (R341 TRAPM, R412). -/
def Kernel.handles (k : Kernel) (cause : Nat) : Bool :=
  k.handlerIp ≠ 0xFFFFFFFF ∧ bitN (k.field 255 224) cause

/-- Cluster shape: 0 by 0 for none. -/
def Kernel.clusterW (k : Kernel) : Nat := k.field 16 13

/-- Cluster height. -/
def Kernel.clusterH (k : Kernel) : Nat := k.field 20 17

/-! ## Launch records (R338) -/

/-- n bytes of a launch's record from an offset. -/
def Launch.field (l : Launch) (off n : Nat) : Nat := leN ((l.record.drop off).take n)

/-! ## Fibres in their slots (R42, R50) -/

/-- The issue slot of the core that a fibre runs in. -/
def Team.slotOf (t : Team) (f : Fibre) : Nat := t.coreSlots.getD f.slot 0

/-- The lanes that are ready: live and not waiting in `ldfe` or `stfe` (R51). -/
def Fibre.ready (f : Fibre) : Mask := f.live &&& ~~~f.waiting

/-- The IP of a lane. -/
def Fibre.ip (f : Fibre) (L : Nat) : Word := SMap.get 0 f.ips L

/-- Moves lanes to one IP. -/
def Fibre.moveTo (f : Fibre) (lanes : Mask) (ip : Word) : Fibre :=
  { f with ips := SMap.setLanes 0 f.ips 0 (lanesOf lanes) fun _ => ip }

/-- Whether a fibre of the slot can take it: Ready. -/
def Fibre.isReady (f : Fibre) : Bool := f.run = .ready

/-- The fibres of a slot of a team. -/
def State.slotMates (s : State) (f : Fibre) : List Fibre :=
  s.fibres.filter fun g => g.team == f.team && g.slot == f.slot

/-- The next Ready fibre of a slot in cyclic role order after a role (R42). -/
def State.nextReady (s : State) (f : Fibre) (perSlot : Nat) : Option Fibre :=
  ((List.range perSlot).map fun k => (f.role + 1 + k) % perSlot).findSome? fun r =>
    (s.slotMates f).find? fun g => g.role == r && g.isReady

/-- The current fibre of a slot of a core. -/
def Core.currentOf (c : Core) (slot : Nat) : Option Nat :=
  match SMap.get 0 c.current slot with
  | 0 => none
  | f + 1 => some f

/-- Makes a fibre, or none, the current one of a slot. -/
def State.setCurrent (s : State) (core slot : Nat) (f : Option Nat) : State :=
  let s := s.modCore core fun c => { c with current := SMap.set 0 c.current slot (match f with | some f => f + 1 | none => 0) }
  match f with
  | some f => s.modFibre f fun x => { x with run := .current, since := s.now }
  | none => s

/-- A fibre leaves its slot: the slot passes to the next Ready fibre, if there is one (R42). -/
def State.passSlot (s : State) (f : Fibre) (t : Team) : State :=
  if (s.core t.core).currentOf (t.slotOf f) = some f.id then
    s.setCurrent t.core (t.slotOf f) ((s.nextReady f t.perSlot).map Fibre.id)
  else s

/-- A fibre enters a state other than Current, waiting for something; if it was Current, its slot passes. -/
def State.leave (s : State) (fid : Nat) (run : Run) (waits : Waits) : State :=
  let s := s.modFibre fid fun f => { f with run := run, waits := waits }
  match s.fibre? fid with
  | none => s
  | some f => match s.team? f.team with
    | none => s
    | some t => s.passSlot f t

/-- A fibre becomes Ready, and Current at once when its slot has no current fibre (R42). -/
def State.wake (s : State) (fid : Nat) : State :=
  let s := s.modFibre fid fun f => { f with run := .ready, waits := .none }
  match s.fibre? fid with
  | none => s
  | some f => match s.team? f.team with
    | none => s
    | some t =>
      if (s.core t.core).currentOf (t.slotOf f) = none then s.setCurrent t.core (t.slotOf f) (some fid) else s

/-- A fibre's lanes move past the instruction they wait in, and it becomes Ready. -/
def State.wakePast (s : State) (fid : Nat) (lanes : Mask) : State :=
  (s.modFibre fid fun f =>
    { f with ips := SMap.setLanes 0 f.ips 0 (lanesOf (lanes &&& f.live)) fun L => f.ip L + 1 }).wake fid

/-- Whether a fibre has results outstanding (R46). -/
def State.outstanding (s : State) (fid : Nat) : Bool := s.results.any fun r => r.fid == fid

/-- A fibre that waited for its results at a switch point becomes Ready once none is left (R47). -/
def State.wakeIfDone (s : State) (fid : Nat) : State :=
  match s.fibre? fid with
  | some f => if f.run = .parked ∧ f.waits = .results ∧ !s.outstanding fid then s.wake fid else s
  | none => s

/-- A progress event of a launch (R450). -/
def State.progress (s : State) (l : Nat) : State := s.modLaunch l fun x => { x with watchdog := s.now }

/-- A progress event of a team's launch. -/
def State.progressTeam (s : State) (t : Nat) : State :=
  match s.team? t with
  | some t => s.progress t.launch
  | none => s

/-- A fresh name. -/
def State.fresh (s : State) : Nat × State := (s.nextId, { s with nextId := s.nextId + 1 })

/-- The live fibres of a team: not Ended (R54, R264). -/
def State.liveFibres (s : State) (team : Nat) : List Fibre :=
  s.fibres.filter fun f => f.team == team && decide (f.run ≠ .ended)

/-- Ends a launch with a status and a code; the first that reaches the parser core decides (R329, R344, R451). The
completion itself is written by LAUNCH_COMPLETE. -/
def State.endLaunch (s : State) (l : Nat) (status code : Nat) : State :=
  s.modLaunch l fun x =>
    if x.outcome.isSome then x
    else { x with outcome := some (status, BitVec.ofNat 32 code) }

end Sys2Proof.Machine
end

