-- ==== Sys2Proof/Machine/Home.lean ====
section
/-! DEFINITION. Memory at its home: placement (R127 to R129), exact sums (R111 to R115), watches (R137), home reads
and stores, and the L1 of a core with its write-backs and promotions (R116 to R118, R147, R153). -/

namespace Sys2Proof.Machine

/-! ## Placement (R127 to R129, R138) -/

/-- Where a byte of memory lies. The views are those of R127: 0 the 4 KiB interleave, 1 the 64 KiB interleave, 2 the direct view. -/
structure Place where
  /-- the storage key: package, stack, offset in the stack (R128), and the physical address -/
  key : Nat
  pa : Nat
  view : Nat
  pkg : Nat
  tower : Nat
  hash : Nat
deriving DecidableEq, Repr

/-- The slice hash of a package-local address (R128). -/
def sliceHash (a : Nat) : Nat := (bits a 12 7) ^^^ (bits a 18 13) ^^^ (bits a 24 19)

/-- The storage key of a stack offset. -/
def stackKey (pkg stack off : Nat) : Nat := pkg * 2 ^ 39 + stack * 2 ^ 36 + off

/-- Where a physical address is homed and stored, by its view and the leaf's HT (R127, R128). -/
def placeOf (view ht pa : Nat) : Place :=
  let pkg := bits pa 45 39
  let a := pa % 2 ^ 39
  match view with
  | 0 =>
    let t := (bits a 13 12) ^^^ (bits a 21 20) ^^^ (bits a 29 28)
    let k := (bits a 14 14) ^^^ (bits a 22 22) ^^^ (bits a 30 30)
    { key := stackKey pkg (2 * t + k) (a / 2 ^ 15 * 2 ^ 12 + a % 2 ^ 12), pa := pa, view := 0, pkg := pkg, tower := t, hash := sliceHash a }
  | 1 =>
    let t := (bits a 17 16) ^^^ (bits a 25 24) ^^^ (bits a 33 32)
    let k := (bits a 18 18) ^^^ (bits a 26 26) ^^^ (bits a 34 34)
    { key := stackKey pkg (2 * t + k) (a / 2 ^ 19 * 2 ^ 16 + a % 2 ^ 16), pa := pa, view := 1, pkg := pkg, tower := t, hash := sliceHash a }
  | _ =>
    { key := stackKey pkg (2 * bits a 38 37 + bits a 36 36) (a % 2 ^ 36), pa := pa, view := 2, pkg := pkg, tower := ht % 4,
      hash := sliceHash a }

/-- The view of a leaf's placement (R129). -/
def viewOfPlc (plc : Nat) : Nat := match plc with
  | 2 => 2
  | 3 => 1
  | _ => 0

/-- The physical slice of a hash value under a tower's slice map (R138). -/
def Tower.sliceOf (t : Tower) (hash : Nat) : Nat :=
  match SMap.get 0 t.sliceMap hash with
  | 0 => hash
  | n + 1 => n

/-- The vertical port of a core within its tower (R10): one for each column of each die. -/
def verticalPort (core : Nat) : Nat := 12 * layerOf core + core % 96 % 12

/-- The bank of a place as its home tower serves it: its package and home slice. The slice map of another package is its own (R131,
R138). -/
def State.bankOf (s : State) (p : Place) : Nat :=
  p.pkg * 256 + p.tower * 64 + (if p.pkg = s.pkg.pkgNo then (s.tower p.tower).sliceOf p.hash else p.hash)

/-- Whether a core has a request outstanding to a bank. -/
def State.hasRequestTo (s : State) (core bank : Nat) : Bool :=
  s.reqs.any fun r => r.bank == bank && decide (r.state ≠ .answered) && s.ops.any fun o => o.id == r.op && o.core == core

/-- The bank that a core's request names (R131): during a retirement, by the old map until the core has no request outstanding to the
slice, which is when it adopts the new one (R138). -/
def State.bankFor (s : State) (core : Nat) (p : Place) : Nat :=
  if p.pkg = s.pkg.pkgNo then
    match (s.tower p.tower).retire with
    | some r =>
      let x := p.pkg * 256 + p.tower * 64 + r.slice
      if r.hashes.contains p.hash ∧ s.hasRequestTo core x then x else s.bankOf p
    | none => s.bankOf p
  else s.bankOf p

/-- The bank that serves a request for a bank: a retired slice has passed its requests on (R138). -/
def State.servedBy (s : State) (bank : Nat) : Nat :=
  if bank / 256 = s.pkg.pkgNo then bank / 64 * 64 + (s.tower (bank / 64 % 4)).sliceOf (bank % 64) else bank

/-- The first byte of the line of a key (R117). -/
def lineOf (key : Nat) : Nat := key / 128 * 128

/-! ## Exact sums (R111 to R115) -/

/-- The weight of the least bit of an FP32 exact accumulator. -/
def exactUnit : Int := -149

/-- Opens an accumulator on a word's bits (R111). -/
def Exact.openOn (key bank : Nat) (isFloat sat : Bool) (w : Nat) : Exact :=
  let x : Exact :=
    { key := key, bank := bank, spilled := false, isFloat := isFloat, value := 0, nan := false, pinf := false, ninf := false,
      count := 0, sat := sat }
  if isFloat then
    match Fmt.f32.value w with
    | .nan _ => { x with nan := true }
    | .inf n => { x with pinf := !n, ninf := n }
    | v => { x with value := v.over exactUnit }
  else { x with value := signed 32 w }

/-- The bits that a materialisation writes (R113). -/
def Exact.bits (x : Exact) : Nat :=
  if x.isFloat then
    if x.nan ∨ (x.pinf ∧ x.ninf) then Fmt.f32.nanEnc
    else if x.pinf then Fmt.f32.infEnc
    else if x.ninf then Fmt.f32.sign true + Fmt.f32.infEnc
    else (Fmt.f32.round 0 false (Val.ofInt x.value exactUnit false)).1
  else wrap 32 (if x.sat then satS x.value 32 else x.value)

/-- Adds one contribution exactly (R112). -/
def Exact.add (x : Exact) (w : Nat) (sat : Bool) : Exact :=
  let x := { x with count := x.count + 1, sat := sat }
  if x.isFloat then
    match Fmt.f32.value w with
    | .nan _ => { x with nan := true }
    | .inf n => if n then { x with ninf := true } else { x with pinf := true }
    | v => { x with value := x.value + v.over exactUnit }
  else { x with value := x.value + signed 32 w }

/-- Whether the word of an accumulator shares a byte with n bytes from a key. -/
def Exact.touches (x : Exact) (k n : Nat) : Bool := decide (x.key < k + n) && decide (k < x.key + 4)

/-- Materialises every open accumulator that n bytes from a key touch (R113). -/
def State.materialise (s : State) (k n : Nat) : State :=
  { s with mem := (s.exacts.filter fun x => x.touches k n).foldl (fun m x => Memory.writeN m x.key 4 x.bits) s.mem }

/-- Materialises and closes them (R113). -/
def State.closeExacts (s : State) (k n : Nat) : State :=
  { s.materialise k n with exacts := s.exacts.filter fun x => !x.touches k n }

/-! ## Watches (R137) -/

/-- Wakes what one watch stands for: a fibre parked in `waddr` moves on, one in `sigw` or `collw` reads again, a queue's
WAIT is reread (R265, R311, R316, R331). -/
def State.wakeWatch (s : State) (w : Watch) : State :=
  match w.fid with
  | none => s
  | some f => match s.fibre? f with
    | none => s
    | some x => match x.waits with
      | .waddr _ lanes => s.wakePast f lanes
      | .watch => s.wake f
      | _ => s

/-- Wakes the watches that pass a test, and removes them. -/
def State.wakeWhere (s : State) (p : Watch → Bool) : State :=
  (s.watches.filter p).foldl State.wakeWatch { s with watches := s.watches.filter fun w => !p w }

/-- A write reaches a line: it leaves the staging buffer (R132), and every watch of it wakes (R137). -/
def State.wakeLine (s : State) (line : Nat) : State :=
  ({ s with staged := s.staged.filter fun g => g.line != line }).wakeWhere fun w => w.line == line

/-- Registers a watch; a slice's 257th wakes its oldest (R137). -/
def State.addWatch (s : State) (w : Watch) : State :=
  let same := s.watches.filter fun x => x.bank == w.bank
  let s := if same.length < 256 then s
    else match same.head? with
      | some old => { s with watches := s.watches.erase old }.wakeWatch old
      | none => s
  { s with watches := s.watches ++ [w] }

/-! ## Home reads and stores (R113, R119, R147) -/

/-- A read of n bytes that the home slice serves: it materialises first. -/
def State.homeRead (s : State) (k n : Nat) : Nat × State :=
  let s := s.materialise k n
  (Memory.readN s.mem k n, s)

/-- The value of a word as a read would give it. -/
def State.wordNow (s : State) (k : Nat) : Nat := Memory.readN (s.materialise k 4).mem k 4

/-- The doorbells in a line whose word differs from what it was have been rung (R332). -/
def State.ring (before s : State) (line : Nat) : State :=
  let rings := fun q : UQueue => match q.bell with
    | some k => lineOf k == line && decide (before.wordNow k ≠ s.wordNow k)
    | none => false
  { s with queues := s.queues.map fun q => if rings q then { q with rung := true } else q }

/-- A write has reached a line at its home: doorbells and watches. -/
def State.lineWritten (before s : State) (line : Nat) : State := (State.ring before s line).wakeLine line

/-- A store of n bytes at the home slice: it closes the accumulators it touches and wakes the line's watches. -/
def State.homeWrite (s : State) (k n v : Nat) : State :=
  let c := s.closeExacts k n
  s.lineWritten { c with mem := Memory.writeN c.mem k n v } (lineOf k)

/-- A store of bits at the home slice: nbits from bit `bit` of the byte k (R146). -/
def State.homeWriteBits (s : State) (k bit nbits v : Nat) : State :=
  let n := (bit + nbits + 7) / 8
  let c := s.closeExacts k n
  let old := Memory.readN c.mem k n
  let new := old % 2 ^ bit + (v % 2 ^ nbits) * 2 ^ bit + old / 2 ^ (bit + nbits) * 2 ^ (bit + nbits)
  s.lineWritten { c with mem := Memory.writeN c.mem k n new } (lineOf k)

/-- The exact states that a slice holds, the least recently contributed to first. -/
def State.exactsIn (s : State) (bank : Nat) : List Exact := s.exacts.filter fun x => x.bank == bank && !x.spilled

/-- The exact state of a word leaves its slice: the word is materialised, the state spilled unrounded (R113, R114). -/
def State.spill (s : State) (k : Nat) : State :=
  let s := s.materialise k 4
  { s with exacts := s.exacts.map fun x => if x.key = k then { x with spilled := true } else x }

/-- Every exact state of a slice is spilled, and another slice serves the words from then on (R138). -/
def State.spillSlice (s : State) (bank owner : Nat) : State :=
  let s := (s.exactsIn bank).foldl (fun s x => s.spill x.key) s
  { s with exacts := s.exacts.map fun x => if x.bank = bank then { x with bank := owner } else x }

/-- Room in a slice for the exact state of one more word: with 2,048 held, the least recently contributed to is spilled (R114). -/
def State.roomForExact (s : State) (k bank : Nat) : State :=
  if s.exacts.any fun x => x.key == k && !x.spilled then s
  else match s.exactsIn bank with
    | x :: xs => if 2048 ≤ (x :: xs).length then s.spill x.key else s
    | [] => s

/-- One `xadd` contribution at a home slice (R111 to R114). A spilled state is reloaded and goes on. -/
def State.homeXadd (before : State) (k bank : Nat) (isFloat sat : Bool) (w : Nat) : State :=
  let s := before
  let s := if s.exacts.any fun x => x.touches k 4 && (x.isFloat != isFloat) then s.closeExacts k 4 else s
  let s := s.roomForExact k bank
  let x := match s.exacts.find? fun x => x.key == k with
    | some x => { x with spilled := false, bank := bank }
    | none => Exact.openOn k bank isFloat sat (Memory.readN s.mem k 4)
  let x := x.add w sat
  let s := { s with exacts := (s.exacts.filter fun y : Exact => y.key != k) ++ [x] }
  let s := if x.count = 2 ^ 40 then
      let s := s.materialise k 4
      { s with exacts := (s.exacts.filter fun y : Exact => y.key != k) ++
          [Exact.openOn k bank isFloat sat (Memory.readN s.mem k 4)] }
    else s
  before.lineWritten s (lineOf k)

/-! ## The L1 (R117, R118) -/

/-- The line of an L1, if it holds it. -/
def Core.l1Line? (c : Core) (line : Nat) : Option L1Line := c.l1.find? fun x => x.line == line

/-- The steps of a core that form its L1: 16 less the whole steps of its teams' scratchpads (R116). -/
def State.l1Steps (s : State) (core : Nat) : Nat :=
  let kib := ((s.teams.filter fun t => t.core == core).map fun t => t.scratch).foldl (· + ·) 0
  16 - (kib + 65535) / 65536

/-- Writes the dirty bytes of one line back to its home (R117). -/
def State.writeBackLine (s : State) (core : Nat) (x : L1Line) : State :=
  let s := ((List.range 128).filter fun i => x.dirty.getLsbD i).foldl
    (fun s i => s.homeWrite (x.line + i) 1 (SMap.get 0 x.bytes i).toNat) s
  s.modCore core fun c => { c with l1 := replaceBy (fun y => y.line == x.line) (fun y => { y with dirty := 0, tagged := false }) c.l1 }

/-- Writes back a line that the core may hold. -/
def State.writeBackAt (s : State) (core line : Nat) : State :=
  match (s.core core).l1Line? line with
  | some x => s.writeBackLine core x
  | none => s

/-- Writes back every dirty byte of an L1 (R118). -/
def State.writeBackAll (s : State) (core : Nat) : State :=
  (s.core core).l1.foldl (fun s x => if x.dirty = 0 then s else s.writeBackLine core x) s

/-- Drops a line without writing it back. -/
def State.dropLine (s : State) (core line : Nat) : State :=
  if ((s.core core).l1Line? line).isSome then
    s.modCore core fun c => { c with l1 := c.l1.filter fun x => x.line != line }
  else s

/-- Writes back and then invalidates every line (R118). -/
def State.invalidateAll (s : State) (core : Nat) : State :=
  if (s.core core).l1 = [] then s
  else (s.writeBackAll core).modCore core fun c => { c with l1 := [] }

/-- Promotes a core: every dirty byte is written back, then its tags are cleared (R153). -/
def State.promote (s : State) (core : Nat) : State :=
  let s := s.writeBackAll core
  { s with tags := s.tags.filter fun t => t.core != core }

/-- An L1 evicts a line: one that holds a tagged store first writes back every dirty byte of the L1 (R153). -/
def State.evictLine (s : State) (core : Nat) (x : L1Line) : State :=
  let s := if x.tagged then s.promote core else s.writeBackLine core x
  s.dropLine core x.line

/-- The set of an L1 that a line falls into: the manual gives no index, the model takes the low 9 bits of the line number (DESIGN
CHOICE, log 11). -/
def l1Set (line : Nat) : Nat := line / 128 % 512

/-- The lines that a full set may drop: those marked to leave first, if it holds any (R181). -/
def victimsOf (set : List L1Line) : List L1Line :=
  match set.filter L1Line.first with
  | [] => set
  | xs => xs

/-- Allocates a line in a core's L1 with its bytes from home; when its set is full, a line of the set leaves (R116; which one is
log 11), first one that is to leave first (R181). -/
def State.fillLine (s : State) (core line : Nat) (first : Bool := false) : State :=
  if ((s.core core).l1Line? line).isSome then s
  else
    let ways := s.l1Steps core
    let set := (s.core core).l1.filter fun x => l1Set x.line == l1Set line
    let out := victimsOf set
    let s := if set.length < ways then s
      else match out[s.pick (2 ^ 128 + line) % out.length]? with
        | some x => s.evictLine core x
        | none => s
    let (v, s) := s.homeRead line 128
    let bytes := SMap.setLanes 0 [] 0 (List.range 128) fun i => BitVec.ofNat 8 (v / 2 ^ (8 * i))
    if ways = 0 then s
    else s.modCore core fun c => { c with l1 := c.l1 ++ [{ line := line, bytes := bytes, dirty := 0, tagged := false, first := first }] }

/-- The n bytes of an L1 line from an offset, as one number. -/
def L1Line.readN (x : L1Line) (off : Nat) : Nat → Nat
  | 0 => 0
  | n + 1 => (SMap.get 0 x.bytes off).toNat + 256 * x.readN (off + 1) n

/-- Writes bits into an L1 line and marks their bytes dirty or leaves their marks (R117). -/
def L1Line.writeBits (x : L1Line) (off bit nbits v : Nat) (dirty : Bool) : L1Line :=
  let n := (bit + nbits + 7) / 8
  let old := x.readN off n
  let new := old % 2 ^ bit + (v % 2 ^ nbits) * 2 ^ bit + old / 2 ^ (bit + nbits) * 2 ^ (bit + nbits)
  { x with
    bytes := SMap.setLanes 0 x.bytes off (List.range n) fun i => BitVec.ofNat 8 (new / 2 ^ (8 * i)),
    dirty := if dirty then x.dirty ||| BitVec.ofNat 128 ((2 ^ n - 1) * 2 ^ off) else x.dirty }

/-- Changes a line that an L1 holds. -/
def State.modLine (s : State) (core line : Nat) (g : L1Line → L1Line) : State :=
  s.modCore core fun c => { c with l1 := replaceBy (fun x => x.line == line) g c.l1 }

/-! ## The staging buffer of a slice (R132) -/

/-- A no-allocate read of a line: from the copy of the slice when it holds one, else through its buffer of 16 lines. -/
def State.stage (s : State) (bank line : Nat) : State :=
  if s.pick (2 ^ 193 + line / 128) % 2 = 1 then s
  else
    let others := s.staged.filter fun g => g.line != line
    let same := others.filter fun g => g.bank == bank
    let kept := match same with
      | g :: _ => if same.length < 16 then others else others.erase g
      | [] => others
    { s with staged := kept ++ [⟨bank, line⟩] }

/-! ## Promotion tags (R153) -/

/-- A release or a strong store sends the tag of its core to the line's slice. -/
def State.addTag (s : State) (line bank core : Nat) : State :=
  let s := match s.tags.find? fun t => t.line == line with
    | some t => if t.core = core then s else s.promote t.core
    | none => s
  let s := { s with tags := s.tags.filter fun t : PromoTag => t.line != line }
  let same : List PromoTag := s.tags.filter fun t => t.bank == bank
  let s := if same.length < 512 then s
    else match same.head? with
      | some t => s.promote t.core
      | none => s
  { s with tags := s.tags ++ [{ line := line, bank := bank, core := core }] }

/-- An acquire at die scope or wider from a core reaches a line: the core that its tag names is promoted first. -/
def State.serveTag (s : State) (line core : Nat) : State :=
  match s.tags.find? fun t => t.line == line with
  | some t => if t.core = core then s else s.promote t.core
  | none => s

/-! ## Structures that the manual locates by physical address (R127, R480) -/

/-- A read in the 4 KiB interleave view, byte by byte from a physical address. -/
def State.physRead (s : State) (pa n : Nat) : Nat × State := s.homeRead (placeOf 0 0 pa).key n

/-- The first byte of the error ring: package-local 0x7F_FFC0_0000 of the direct view (R480). -/
def State.ringKey (s : State) : Nat := (placeOf 2 3 (s.pkg.pkgNo * 2 ^ 39 + 0x7FFFC00000)).key

/-- The tower that a record names for an event of no tower: free (R481, log 22). -/
def State.anyTower (s : State) : Nat := s.pick 9437184 % 4

/-- Core 4 writes one record of 64 bytes: type, severity, source core, core (127 none), die (31 none), tower and body
fields as (byte offset, bytes, value) (R480 to R483). -/
def State.errorRecord (s : State) (type sev src core die twr : Nat) (body : List (Nat × Nat × Nat)) : State :=
  let ring := s.ringKey
  let (wr, s) := s.homeRead ring 4
  let (rd, s) := s.homeRead (ring + 4) 4
  if 65535 ≤ (wr + 2 ^ 32 - rd) % 2 ^ 32 then
    let (lost, s) := s.homeRead (ring + 8) 4
    (s.homeWrite (ring + 8) 4 (min (2 ^ 32 - 1) (lost + 1))).modPkg fun p => { p with ringLost := p.ringLost + 1 }
  else
    let at_ := ring + 64 + 64 * (wr % 65535)
    let head := type + sev * 2 ^ 8 + src * 2 ^ 10 + core * 2 ^ 32 + die * 2 ^ 39 + twr * 2 ^ 44
    let s := s.homeWrite at_ 64 (head + (s.now % 2 ^ 64) * 2 ^ 64 + (s.pkg.errSeq % 2 ^ 64) * 2 ^ 128)
    let s := body.foldl (fun s b => s.homeWrite (at_ + b.1) b.2.1 b.2.2) s
    (s.homeWrite ring 4 ((wr + 1) % 2 ^ 32)).modPkg fun p => { p with errSeq := p.errSeq + 1, msix := p.msix + 1 }

end Sys2Proof.Machine
end

