-- ==== Sys2Proof/Machine/Operands.lean ====
section
/-! DEFINITION. The instruction in the issue stage and what it reads: registers through windows and hazards (R39,
R45, R49), lane patterns (R175), guards (R177), immediates, literals and sources (R172 to R174, R193 Src). -/

namespace Sys2Proof.Machine

/-! ## The issue stage -/

/-- What an instruction sees at its issue cycle: the state, its fibre, team, launch, IP, the ready lanes at that IP,
and the window that all of its operands use (R268). -/
structure View where
  s : State
  f : Fibre
  t : Team
  l : Launch
  ip : Word
  mask : Mask
  base : Nat
  size : Nat
deriving DecidableEq, Repr

/-- The view of the fibre that the cursor names. -/
def State.view (s : State) : Option View :=
  match s.cursor with
  | none => none
  | some c => match s.fibre? c.fid with
    | none => none
    | some f => match s.team? f.team with
      | none => none
      | some t => match s.launch? t.launch with
        | none => none
        | some l =>
          -- before the switch point that follows `fclaim.set`, either window (R268)
          let w := match f.winNext with
            | some w => if s.pick 268 % 2 = 1 then w else (f.winBase, f.winSize)
            | none => (f.winBase, f.winSize)
          some { s := s, f := f, t := t, l := l, ip := c.ip, mask := c.mask, base := w.1, size := w.2 }

/-- The kernel that the team runs. -/
def View.kernel (v : View) : Kernel := v.l.kernelAt v.t.kernel

/-- The bounds of the fibre's register numbers (R70, R71). A team without `.lease` is turned away by R271 and not by
its accumulator number (log 17). -/
def View.limits (v : View) : Limits :=
  { window := v.size, allot := v.f.allot, accs := if v.kernel.llen = 0 then 16 else v.t.nacc }

/-! ## Registers -/

/-- The pool key of pool register q of a team slot, lane 0 (R38). -/
def poolKey (slot q : Nat) : Nat := (512 * slot + q) * 32

/-- The number by which hazards and writes name a register: a pool register for a vector. -/
def View.regNo (v : View) (cls : Cls) (r : Nat) : Nat := if cls = .vec then v.base + r else r

/-- The value that a register holds, hazards apart. Predicates read as 0 or 1, and p0 as 1 (R72). -/
def cellOf (t : Team) (f : Fibre) (cls : Cls) (q lane : Nat) : Word :=
  match cls with
  | .vec => SMap.get 0 t.pool (poolKey f.slot q + lane)
  | .uni => SMap.get 0 f.uregs q
  | .pred => if q = 0 then 1 else BitVec.ofNat 32 (b2n ((SMap.get 0 f.preds q).getLsbD lane))
  | _ => 0

/-- Whether a hazard still lets a read of a register see the value before (R45). -/
def Hazard.covers (h : Hazard) (cls : Cls) (q lane : Nat) : Bool :=
  h.cls = cls && h.reg = q && h.lanes.getLsbD lane

/-- Whether the writer's own later reads may still miss the write (R45). -/
def Hazard.live (h : Hazard) (now : Nat) : Bool :=
  match h.until_ with
  | none => true
  | some c => decide (now < c)

/-- The number that names the choice for a register and a lane. -/
def regChoice (cls : Cls) (q lane : Nat) : Nat :=
  (match cls with
    | .vec => 1
    | .uni => 2
    | .pred => 3
    | _ => 4) * 2 ^ 20 + q * 32 + lane

/-- A read under hazards, newest first: each one leaves the value before or the value after (R45, R49). -/
def readUnder (s : State) (salt lane : Nat) : Word → List Hazard → Word
  | cur, [] => cur
  | cur, h :: hs =>
    if s.pick salt % 2 = 1 then readUnder s (salt + 1) lane (SMap.get 0 h.olds lane) hs else cur

/-- Puts a hazard into a list ordered newest first. -/
def insertNewest (x : Bool × Hazard) : List (Bool × Hazard) → List (Bool × Hazard)
  | [] => [x]
  | y :: ys => if y.2.step ≤ x.2.step then x :: y :: ys else y :: insertNewest x ys

/-- The hazards that bear on a fibre's read of a register, newest first: its own live ones, and those of the other fibres of its
slot that no barrier or handoff has ordered (R49). A write that the fibre sees for certain ends the list: nothing older is read
(R45). -/
def View.hazardsOn (v : View) (cls : Cls) (q lane : Nat) : List Hazard :=
  let own := (v.f.hazards.filter fun h => h.covers cls q lane).map fun h => (!h.live v.s.now, h)
  let all :=
    if cls = .vec ∧ v.t.perSlot ≠ 1 then
      let others := (v.s.slotMates v.f).filter fun g => g.id != v.f.id
      let theirs := others.flatMap fun g => (g.hazards.filter fun h => h.covers cls q lane).map fun h => (h.ordered.contains v.f.id, h)
      (own ++ theirs).foldr insertNewest []
    else own
  (all.takeWhile fun p => !p.1).map Prod.snd

/-- Reads register r of a class in a lane (R39, R45, R49, R72). -/
def View.reg (v : View) (cls : Cls) (r lane : Nat) : Word :=
  let q := v.regNo cls r
  let lane := if cls = .uni then 0 else lane
  let cur := cellOf v.t v.f cls q lane
  readUnder v.s (2 ^ 64 + 2 ^ 16 * regChoice cls q lane) lane cur (v.hazardsOn cls q lane)

/-- n registers from r as one number, the first lowest (R74). -/
def View.regs (v : View) (cls : Cls) (r lane : Nat) : Nat → Nat
  | 0 => 0
  | n + 1 => (v.reg cls r lane).toNat + 2 ^ 32 * v.regs cls (r + 1) lane n

/-- The bit of a predicate in a lane (R72, R193 Pred). -/
def View.pred (v : View) (p lane : Nat) : Bool := v.reg .pred p lane ≠ 0

/-! ## Guards (R177) -/

/-- A guard predicate of 7 bits: number in 5:0, bit 6 inverts. -/
def View.guardBit (v : View) (g : BitVec 7) (lane : Nat) : Bool := v.pred (g.toNat % 64) lane != decide (64 ≤ g.toNat)

/-- Guard(L). -/
def View.guard (v : View) (e : Enc) (lane : Nat) : Bool :=
  if e.gc then v.guardBit e.ga lane || v.guardBit e.gb lane else v.guardBit e.ga lane && v.guardBit e.gb lane

/-- ACTIVE: the ready lanes at the IP whose guard is true (R193). -/
def View.active (v : View) (e : Enc) : Mask := maskWhere fun L => v.mask.getLsbD L && v.guard e L

/-! ## Lane patterns (R175) -/

/-- The lane that a source reads for lane L under sub-group width w. -/
def patLane (pat arg w L : Nat) : Nat :=
  let m := L % w
  let b := L - m
  match pat with
  | 1 => b + (m + arg) % w
  | 2 => b + arg % w
  | 3 => b + (m ^^^ (arg % w))
  | 4 => b + w - 1 - m
  | 5 => b + (m + arg * groupWidth / 64) % w
  | 6 => if m + arg < w then b + m + arg else L
  | _ => L

/-- PatLane(op, L). -/
def View.patLane (v : View) (o : Operand) (L : Nat) : Nat :=
  Machine.patLane o.pat.toNat o.arg.toNat v.f.sgw.toNat L

/-! ## Source types -/

/-- How a source is read: its bits, the bits of an element, floating point or not, signed or not. -/
structure Ty where
  bits : Nat
  n : Nat
  fl : Bool
  sg : Bool
deriving DecidableEq, Repr

/-- Unsigned 32 bits, also a bit pattern. -/
def Ty.u32 : Ty := ⟨32, 32, false, false⟩
/-- Signed 32 bits. -/
def Ty.i32 : Ty := ⟨32, 32, false, true⟩
/-- Unsigned 64 bits. -/
def Ty.u64 : Ty := ⟨64, 64, false, false⟩
/-- Signed 64 bits. -/
def Ty.i64 : Ty := ⟨64, 64, false, true⟩
/-- FP32. -/
def Ty.f32 : Ty := ⟨32, 32, true, true⟩
/-- BF16 or FP16 in bits 15:0. -/
def Ty.h16 : Ty := ⟨16, 16, true, true⟩
/-- A packed pair of BF16 or FP16. -/
def Ty.h16x2 : Ty := ⟨32, 16, true, true⟩
/-- Four FP8 elements. -/
def Ty.b8x4 : Ty := ⟨32, 8, true, true⟩

/-- The integer type of a code of R205. -/
def Ty.int : Nat → Ty
  | 0 => .i32
  | 1 => .u32
  | 2 => .i64
  | 3 => .u64
  | 4 => ⟨32, 16, false, true⟩
  | 5 => ⟨32, 16, false, false⟩
  | 6 => ⟨32, 8, false, true⟩
  | _ => ⟨32, 8, false, false⟩

/-- The floating-point type of a code of R184. -/
def Ty.fp : Nat → Ty
  | 0 => .f32
  | 1 | 2 => .h16
  | _ => .h16x2

/-- The format of a floating-point type code of R184. -/
def fmtOfTy : Nat → Fmt
  | 0 => .f32
  | 1 | 3 => .bf16
  | _ => .f16

/-- Registers of a type. -/
def Ty.words (ty : Ty) : Nat := (ty.bits + 31) / 32

/-- Elements of a type. -/
def Ty.count (ty : Ty) : Nat := ty.bits / ty.n

/-- Element e of a value. -/
def Ty.elem (ty : Ty) (x e : Nat) : Nat := x / 2 ^ (ty.n * e) % 2 ^ ty.n

/-- A value from its elements, element 0 lowest. -/
def packElems (n : Nat) : List Nat → Nat
  | [] => 0
  | x :: xs => x % 2 ^ n + 2 ^ n * packElems n xs

/-- ABS of one element (R172). -/
def absElem (ty : Ty) (x : Nat) : Nat :=
  if ty.fl then x % 2 ^ (ty.n - 1)
  else if ty.sg ∧ 2 ^ (ty.n - 1) ≤ x then (2 ^ ty.n - x) % 2 ^ ty.n else x

/-- NEG of one element (R172). -/
def negElem (ty : Ty) (x : Nat) : Nat :=
  if ty.fl then (x + 2 ^ (ty.n - 1)) % 2 ^ ty.n else (2 ^ ty.n - x) % 2 ^ ty.n

/-- ABS, then NEG, on every element (R172). -/
def applyMods (ty : Ty) (neg abs : Bool) (x : Nat) : Nat :=
  if neg || abs then
    packElems ty.n ((List.range ty.count).map fun e =>
      let y := ty.elem x e
      let y := if abs then absElem ty y else y
      if neg then negElem ty y else y)
  else x

/-- The value of an immediate in a type (R173). -/
def immValue (ty : Ty) (imm : Nat) : Nat :=
  if ty.fl then
    if ty.n = 32 then imm * 2 ^ 13
    else if ty.bits = 16 then imm % 2 ^ 16
    else if ty.n = 16 then (imm % 2 ^ 16) * (2 ^ 16 + 1)
    else wrap 32 (signed 19 imm)
  else wrap ty.bits (signed 19 imm)

/-- The value of a literal in a type (R174). -/
def litValue (ty : Ty) (lit : Nat) : Nat :=
  if ty.fl ∧ ty.n = 16 then (if ty.bits = 16 then lit % 2 ^ 16 else (lit % 2 ^ 16) * (2 ^ 16 + 1))
  else if ty.bits = 64 then wrap 64 (signed 32 lit)
  else lit

/-- Src(op, L, ty) for the operand of a FIELD of an encoding whose literal, if it has one, stands at `pos` (R193). -/
def View.src (v : View) (e : Enc) (pos k : Nat) (ty : Ty) (L : Nat) : Nat :=
  let o := e.field k
  match o.cls with
  | .imm => if e.hasLit ∧ pos = k then litValue ty e.literal else immValue ty o.imm
  | .uni => applyMods ty o.neg o.abs (v.regs .uni o.num.toNat 0 ty.words % 2 ^ ty.bits)
  | .vec => applyMods ty o.neg o.abs (v.regs .vec o.num.toNat (v.patLane o L) ty.words % 2 ^ ty.bits)
  | .pred => b2n (v.pred o.num.toNat (v.patLane o L) != o.neg)
  | _ => 0

end Sys2Proof.Machine
end

