-- ==== Sys2Proof/Machine/Ops.lean ====
section
/-! DEFINITION. The shared operations of every instruction: the frame of checks and ACTIVE (R169, R193, R410), register
writes (R45, R49), lanes and their end (R51, R54), barriers (R264), taking a trap and returning from one (R325,
R409 to R417). -/

namespace Sys2Proof.Machine

/-! ## Register writes -/

/-- Puts values into a register of a class, in the lanes of a mask; p0 is never written (R72). -/
def putCell (t : Team) (f : Fibre) (cls : Cls) (q : Nat) (lanes : Mask) (g : Nat → Word) : Team × Fibre :=
  match cls with
  | .vec => ({ t with pool := SMap.setLanes 0 t.pool (poolKey f.slot q) (lanesOf lanes) g }, f)
  | .uni => (t, { f with uregs := SMap.set 0 f.uregs q (g 0) })
  | .pred =>
    if q = 0 then (t, f)
    else
      let new := (SMap.get 0 f.preds q &&& ~~~lanes) ||| maskWhere fun L => lanes.getLsbD L && decide (g L ≠ 0)
      (t, { f with preds := SMap.set 0 f.preds q new })
  | _ => (t, f)

/-- Whether two hazards are of one register in some lane. -/
def Hazard.meets (g h : Hazard) : Bool := g.cls = h.cls && g.reg = h.reg && decide (g.lanes &&& h.lanes ≠ 0)

/-- Drops the hazards, newest first, that nobody needs: those that no longer count and hide no older one that does. -/
def pruneHazards (counts : Hazard → Bool) : List Hazard → List Hazard
  | [] => []
  | h :: hs =>
    let rest := pruneHazards counts hs
    if counts h || rest.any fun g => counts g && g.meets h then h :: rest else rest

/-- Whether a hazard still matters to anyone (R45, R49): to the fibre, to a result that was issued before it, to its slot mates. -/
def Hazard.matters (h : Hazard) (now perSlot : Nat) (outstanding : Bool) : Bool :=
  h.live now || outstanding || (decide (h.cls = .vec) && decide (perSlot ≠ 1))

/-- Whether a write and an earlier one that a hazard stands for are not ordered, so that the register ends with either value (R45):
the earlier is not certain yet and no `fbar` lies between (R49), or the write is a result issued before it. -/
def Hazard.disputes (h : Hazard) (now fid : Nat) (result : Option Nat) : Bool :=
  (h.live now && !h.ordered.contains fid) || (result.map fun r => decide (r < h.name)).getD false

/-- The code and the unit of a register in a lane (R459): a pool register's lane, a uniform register, a predicate. -/
def regUnit (f : Fibre) (cls : Cls) (q lane : Nat) : Nat × Nat :=
  match cls with
  | .vec => (1, poolKey f.slot q + lane)
  | .uni => (2, 256 * f.id + q)
  | _ => (3, 256 * f.id + q)

/-- A write of a whole unit makes it good again; of a predicate, only one of all 32 lanes (R464). -/
def Team.mend (t : Team) (f : Fibre) (cls : Cls) (q : Nat) (lanes : Mask) : Team :=
  let whole := fun u : Nat × Nat => match cls with
    | .vec => (lanesOf lanes).any fun L => u == regUnit f .vec q L
    | .uni => u == regUnit f .uni q 0
    | .pred => u == regUnit f .pred q 0 && decide (lanes = 0xFFFFFFFF)
    | _ => false
  if t.bad = [] then t else { t with bad := t.bad.filter fun u => !whole u }

/-- Performs one register write of a fibre, which the fibre's own reads see for certain from cycle `until_`, or after a
switch point; `result` names the result that it is of. A write that an earlier one is not ordered with leaves either value (R45). -/
def State.writeReg (s : State) (fid : Nat) (until_ : Option Nat) (w : RegWrite) (result : Option Nat := none) : State :=
  match s.fibre? fid with
  | none => s
  | some f => match s.team? f.team with
    | none => s
    | some t =>
      let lanes : Mask := if w.cls = .uni then 1 else w.lanes
      let old := fun L => cellOf t f w.cls w.reg L
      let new := fun L =>
        if f.hazards.any fun h => h.covers w.cls w.reg L && h.disputes s.now fid result then
          (if s.pick (2 ^ 96 + regChoice w.cls w.reg L) % 2 = 1 then old L else SMap.get 0 w.vals L)
        else SMap.get 0 w.vals L
      let h : Hazard :=
        { cls := w.cls, reg := w.reg, lanes := lanes, olds := (lanesOf lanes).map fun L => (L, old L),
          until_ := until_, ordered := [], offered := [], step := s.tick, name := s.nextId }
      let p := putCell t f w.cls w.reg lanes new
      let counts := fun h : Hazard => h.matters s.now t.perSlot (s.outstanding fid)
      let f' := { p.2 with hazards := h :: pruneHazards counts p.2.hazards }
      (s.modTeam t.id fun _ => p.1.mend f w.cls w.reg lanes).modFibre fid fun _ => f'

/-- Performs the writes of a list in order. -/
def State.writeRegs (s : State) (fid : Nat) (until_ : Option Nat) (ws : List RegWrite) (result : Option Nat := none) : State :=
  ws.foldl (fun s w => s.writeReg fid until_ w result) s

/-- A special register is written: a `srd` that is too early may still see the value before (R45). -/
def Fibre.noteSpec (f : Fibre) (n : Nat) (old : Word) (until_ : Option Nat) : Fibre :=
  { f with hazards :=
      { cls := .spec, reg := n, lanes := 1, olds := [(0, old)], until_ := until_, ordered := [], offered := [], step := 0, name := 0 }
        :: f.hazards }

/-- ORs flags into `%fpflags` (R82). -/
def State.raiseFlags (s : State) (fid : Nat) (until_ : Option Nat) (fl : Nat) : State :=
  if fl = 0 then s
  else s.modFibre fid fun f => { f.noteSpec 19 f.fpflags until_ with fpflags := f.fpflags ||| BitVec.ofNat 32 fl }

/-- A switch point: the writes of variable latency that have performed are certain from now on (R45), and a claimed window
takes effect (R268). -/
def Fibre.switchPoint (f : Fibre) (perSlot : Nat) : Fibre :=
  let hs := f.hazards.map fun h => if h.until_ = none then { h with until_ := some 0 } else h
  let w := f.winNext.getD (f.winBase, f.winSize)
  { f with
    hazards := pruneHazards (fun h => decide (h.until_ ≠ some 0) || (decide (h.cls = .vec) && decide (perSlot ≠ 1))) hs,
    winBase := w.1, winSize := w.2, winNext := none }

/-- What `%trapinfo` holds outside the Handler state (R83). -/
def TrapInfo.zero : TrapInfo := ⟨0, 0, 0, 0, 0, 0⟩

/-! ## Ends of lanes and fibres; barriers (R54, R264) -/

/-- Whether every live fibre of a list has arrived; one that is Held or in the Handler state counts as not yet arrived (R264, R416). -/
def Barr.full (b : Barr) (live : List Fibre) : Bool :=
  live.all fun f => b.arrived.contains f.id && !f.handler && decide (f.run ≠ .held)

/-- Wakes the fibres that wait for the phase of a barrier, and those parked in `barw` on it. -/
def State.wakePhase (s : State) (which : Nat) (fs : List Fibre) : State :=
  fs.foldl (fun s f => match f.waits with
    | .phase w lanes => if w = which then s.wakePast f.id lanes else s
    | .barw b => if b = which then s.wake f.id else s
    | _ => s) s

/-- The barrier of a number in a table of barriers. -/
def barrAt (m : SMap Barr) (b : Nat) : Barr := SMap.get ⟨0, []⟩ m b

/-- Completes the phase of team barrier b when all have arrived (R264). -/
def State.checkBar (s : State) (team b : Nat) : State :=
  match s.team? team with
  | none => s
  | some t =>
    let x := barrAt t.bars b
    let live := s.liveFibres team
    if x.arrived ≠ [] ∧ x.full live then
      let s := s.modTeam team fun t => { t with bars := SMap.set ⟨0, []⟩ t.bars b ⟨x.phase + 1, []⟩ }
      (s.wakePhase b live).progress t.launch
    else s

/-- The fibres of a slot have met at `fbar`: their earlier writes are ordered for each other, and before every later one (R49). A
fibre's own read of a register that it wrote and no switch point has followed still returns either value (R45). -/
def State.orderSlot (s : State) (team slot : Nat) : State :=
  let mates := s.fibres.filter fun f => f.team == team && f.slot == slot
  let open_ := (mates.flatMap Fibre.hazards).filter fun h => h.live s.now
  let counts := fun h : Hazard => h.live s.now || (decide (h.cls = .vec) && open_.any fun g => g.meets h && decide (g.step < h.step))
  { s with fibres := s.fibres.map fun f =>
      if f.team = team ∧ f.slot = slot then
        { f with hazards := (pruneHazards counts f.hazards).map fun h => { h with ordered := mates.map Fibre.id } }
      else f }

/-- Completes the phase of a slot's barrier (R264). -/
def State.checkFbar (s : State) (team slot : Nat) : State :=
  match s.team? team with
  | none => s
  | some t =>
    let x := barrAt t.fbars slot
    let live := (s.liveFibres team).filter fun f => f.slot == slot
    if x.arrived ≠ [] ∧ x.full live then
      let s := s.modTeam team fun t => { t with fbars := SMap.set ⟨0, []⟩ t.fbars slot ⟨x.phase + 1, []⟩ }
      ((s.orderSlot team slot).wakePhase 8 live).progress t.launch
    else s

/-- The teams of a team's cluster; a team outside a cluster forms a cluster of one (R264). -/
def State.clusterTeams (s : State) (t : Team) : List Team :=
  if t.clusterSize ≤ 1 then [t]
  else s.teams.filter fun u => u.launch == t.launch && u.cluster == t.cluster && decide (u.clusterSize = t.clusterSize)

/-- Completes the phase of a cluster's barrier: a completion is an acquire at die scope (R156, R264). -/
def State.checkCbar (s : State) (team : Nat) : State :=
  match s.team? team with
  | none => s
  | some t =>
    let ts := s.clusterTeams t
    if ts.any (fun u => u.cbar.arrived ≠ []) ∧ ts.all (fun u => u.cbar.full (s.liveFibres u.id)) then
      let s := ts.foldl (fun s u =>
        let s := s.modTeam u.id fun u => { u with cbar := ⟨u.cbar.phase + 1, []⟩ }
        (s.invalidateAll u.core).wakePhase 9 (s.liveFibres u.id)) s
      s.progress t.launch
    else s

/-- Whether every live fibre of a task's team has arrived at `tcommit`; the commit itself is TASK_COMMIT (R320). -/
def State.commitFull (s : State) (t : Team) : Bool :=
  decide (t.commit.arrived ≠ []) && t.commit.full (s.liveFibres t.id)

/-- A departure may complete a phase of any barrier of the team (R264). -/
def State.checkAll (s : State) (team slot : Nat) : State :=
  (((List.range 8).foldl (fun s b => s.checkBar team b) s).checkFbar team slot).checkCbar team

/-- A fibre that was Held becomes Ready, and its earlier arrivals count again (R264, R435). -/
def State.wakeHeldFibre (s : State) (fid : Nat) : State :=
  let s := s.wake fid
  match s.fibre? fid with
  | some f => s.checkAll f.team f.slot
  | none => s

/-! ## Full/empty words (R134, R254) -/

/-- The bit of a word: true for full. -/
def Team.isFull (t : Team) (w : Nat) : Bool := SMap.get false t.fe w

/-- Reserves a word for the first lane of its queue when that lane waits for the state the word is in. -/
def State.feServe (s : State) (team w : Nat) : State :=
  match s.team? team with
  | none => s
  | some t =>
    let q := t.feq.filter fun e => e.word == w
    match q with
    | [] => s
    | e :: _ =>
      let waits := match s.fibre? e.fid with
        | some f => f.waiting.getLsbD e.lane && f.handler == e.handler
        | none => false
      if q.any FeWait.reserved || !waits || (t.isFull w != e.full) then s
      else
        let s := s.modTeam team fun t =>
          { t with feq := replaceBy (fun x => x == e) (fun x => { x with reserved := true }) t.feq }
        let bit : Mask := BitVec.ofNat 32 (2 ^ e.lane)
        s.modFibre e.fid fun f => { f with waiting := f.waiting &&& ~~~bit, reserved := f.reserved ||| bit }

/-- The words of a team in whose queues a fibre holds a place are looked at again. -/
def State.feLook (s : State) (words : List (Nat × Nat)) : State := words.foldl (fun s p => s.feServe p.1 p.2) s

/-- The places that pass a test, as team and word. -/
def State.fePlaces (s : State) (here : FeWait → Bool) : List (Nat × Nat) :=
  (s.teams.flatMap fun t => (t.feq.filter here).map fun w => (t.id, w.word)).eraseDups

/-- The places that pass a test end, and the words go to the next lanes of their queues (R54, R254). -/
def State.feDrop (s : State) (here : FeWait → Bool) : State :=
  match s.fePlaces here with
  | [] => s
  | ws =>
    let teams := s.teams.map fun t => { t with feq := t.feq.filter fun w => !here w }
    { s with teams := teams }.feLook ws

/-- Lanes leave the queues of the words they wait on (R54, R254). -/
def State.dropPlaces (s : State) (fid : Nat) (lanes : Mask) : State := s.feDrop fun w => w.fid == fid && lanes.getLsbD w.lane

/-- A fibre enters Ended (R54): it leaves its slot, every queue of waiting lanes and every barrier count. -/
def State.endFibre (s : State) (fid : Nat) : State :=
  let clear := fun f : Fibre =>
    { f with
      live := 0, waiting := 0, reserved := 0, handler := false, trapinfo := TrapInfo.zero, pending := none }
  let s := (s.modFibre fid clear).leave fid .ended .none
  match s.fibre? fid with
  | none => s
  | some f =>
    (s.dropPlaces fid 0xFFFFFFFF).checkAll f.team f.slot

/-- Lanes exit (R54). -/
def State.exitLanes (s : State) (fid : Nat) (lanes : Mask) : State :=
  let s := (s.modFibre fid fun f => { f with live := f.live &&& ~~~lanes }).dropPlaces fid lanes
  match s.fibre? fid with
  | some f => if f.live = 0 then s.endFibre fid else s
  | none => s

/-! ## Traps (R83, R409 to R417) -/

/-- The 128 bits of `%trapinfo` (R83). -/
def TrapInfo.pack (i : TrapInfo) : Nat :=
  i.cause.toNat + i.field.toNat * 2 ^ 8 + i.detail.toNat * 2 ^ 16 + i.mask.toNat * 2 ^ 32 + i.ip.toNat * 2 ^ 64
    + i.offset.toNat * 2 ^ 96

/-- The completion code of a trap that ends its launch (R414, R415). -/
def TrapInfo.code (i : TrapInfo) (double : Bool) : Nat :=
  (if double then 0xC0000000 else 0x80000000) + i.cause.toNat * 2 ^ 16 + i.detail.toNat

/-- An undelivered or double trap ends the launch, and core 4 sends a record of type 2 (R414, R415, R482). -/
def State.fatalTrap (s : State) (t : Team) (l : Launch) (i : TrapInfo) (double : Bool) : State :=
  let code := i.code double
  let s := s.errorRecord 2 2 4 (t.core % 96) (dieOf t.core) (towerOf t.core)
    [(0x18, 8, l.recVa), (0x20, 16, i.pack), (0x30, 4, code), (0x34, 4, t.tx.toNat), (0x38, 4, t.ty.toNat),
     (0x3C, 4, t.tz.toNat)]
  s.endLaunch l.id 2 code

/-- Taking a trap: the one entry of R412. The pre-trap live mask and IPs are saved, `%trapinfo` is written, every live
lane goes to the handler, and the fibre is Ready in the Handler state; without a handler for the cause, or in the
Handler state already, the launch ends (R414, R415). -/
def State.takeTrap (s : State) (fid : Nat) (i : TrapInfo) : State :=
  match s.fibre? fid with
  | none => s
  | some f => match s.team? f.team with
    | none => s
    | some t => match s.launch? t.launch with
      | none => s
      | some l =>
        let k := l.kernelAt t.kernel
        let s := (s.modFibre fid fun f => { f with pending := none }).leave fid .trapping .none
        if f.handler then s.fatalTrap t l i true
        else if !k.handles i.cause.toNat then s.fatalTrap t l i false
        else
          let s := s.modFibre fid fun f =>
            { f with
              preLive := f.live, preIps := f.ips, preWait := f.waiting ||| f.reserved,
              waiting := 0, reserved := 0, trapinfo := i, handler := true,
              ips := SMap.setLanes 0 f.ips 0 (lanesOf f.live) fun _ => k.handlerIp }
          -- a lane that waited keeps its place in the word's queue, and a reservation for it ends (R412)
          let free := fun w : FeWait => if w.fid = fid then { w with reserved := false } else w
          let teams := s.teams.map fun t => { t with feq := t.feq.map free }
          State.wake { s with teams := teams } fid

/-- The return from a trap (R325): 0 resumes past the trapping instruction, 1 issues it again, 2 ends the fibre. A lane that waited in
`ldfe` or `stfe` waits again in its place, and earlier arrivals of the fibre count again (R254, R264). -/
def State.returnTrap (s : State) (fid mode : Nat) : State :=
  match s.fibre? fid with
  | none => s
  | some f =>
    if mode = 2 then s.endFibre fid
    else
      let ips := fun L =>
        if mode = 0 ∧ f.trapinfo.mask.getLsbD L then f.trapinfo.ip + 1 else SMap.get 0 f.preIps L
      let skipped := if mode = 0 then f.trapinfo.mask else 0
      let s := (s.feDrop fun w => w.fid == fid && (w.handler || skipped.getLsbD w.lane)).modFibre fid fun f =>
        { f with
          ips := SMap.setLanes 0 f.ips 0 (lanesOf f.preLive) ips, live := f.preLive,
          waiting := f.preWait &&& ~~~skipped, reserved := 0, preIps := [], preLive := 0, preWait := 0,
          trapinfo := TrapInfo.zero, handler := false }
      (s.feLook (s.fePlaces fun w => w.fid == fid)).checkAll f.team f.slot

/-- A trap found after issue: the fibre takes it at its next entry point, where it issues no more; the first one found
stands, and an Ended fibre's is undelivered (R411, R439). -/
def State.postTrap (s : State) (fid : Nat) (i : TrapInfo) : State :=
  match s.fibre? fid with
  | none => s
  | some f =>
    if f.run = .ended then
      match s.team? f.team with
      | none => s
      | some t => match s.launch? t.launch with
        | none => s
        | some l => s.fatalTrap t l i false
    else
      let s := s.modFibre fid fun f => { f with pending := some (f.pending.getD i) }
      if f.run = .current ∨ f.run = .ready then s.leave fid .trapping .none else s

/-- The issue stage of a core has chosen a fibre's slot in this cycle (R41). -/
def State.chose (s : State) (t : Team) (f : Fibre) : State :=
  s.modCore t.core fun c => { c with rr := t.slotOf f, lastIssue := some s.now }

/-- A trap found as an instruction issues: the issue step is spent (R41), and the fibre leaves Current and waits for its results (R411,
R412). -/
def State.raise (s : State) (fid : Nat) (i : TrapInfo) : State :=
  let s := (s.modFibre fid fun f => { f with pending := some (f.pending.getD i) }).leave fid .trapping .none
  match s.fibre? fid with
  | none => s
  | some f => match s.team? f.team with
    | none => s
    | some t => s.chose t f

/-- Whether a cause is found after issue, so that the other path of the step performs (R411). -/
def TrapInfo.late (i : TrapInfo) : Bool := decide (0x13 ≤ i.cause.toNat) && decide (i.cause.toNat ≤ 0x15)

/-! ## The frame of an instruction -/

/-- An instruction at issue: its view, its fields, the position of a literal and ACTIVE. -/
structure Iss where
  v : View
  e : Enc
  pos : Nat
  act : Mask
deriving DecidableEq, Repr

/-- How an instruction ends its issue. -/
inductive Act where
  /-- it performed: every lane at the IP goes to IP + 1 -/
  | next (s : State)
  /-- it placed the lanes of ACTIVE itself, or leaves them waiting; the guarded-off lanes go to IP + 1 -/
  | moved (s : State)
  /-- it performed, and has placed every lane itself (R325) -/
  | placed (s : State)
  /-- it does not issue, or waits with every lane at the IP -/
  | hold (s : State)
  /-- it traps with no effect: cause, FIELD, DETAIL, MASK, OFFSET -/
  | trap (cause field detail : Nat) (mask : Mask) (offset : Nat)
  /-- its translation fails: the walks have been made (R429, R430); cause, DETAIL, MASK -/
  | fails (s : State) (cause detail : Nat) (mask : Mask)

/-- The issue bookkeeping of R41 and R43: the slot chosen, and the stall count. -/
def Iss.stamp (x : Iss) (s : State) : State :=
  let v := x.v
  let s := s.modFibre v.f.id fun f => { f with notBefore := max f.notBefore (s.now + 1 + x.e.st.toNat) }
  s.chose v.t v.f

/-- Lanes go to IP + 1. -/
def Iss.advance (x : Iss) (s : State) (lanes : Mask) : State :=
  s.modFibre x.v.f.id fun f => f.moveTo lanes (x.v.ip + 1)

/-- Ends the issue of an instruction. -/
def Iss.finish (x : Iss) : Act → State
  | .next s => x.stamp (x.advance s x.v.mask)
  | .moved s => x.stamp (x.advance s (x.v.mask &&& ~~~x.act))
  | .placed s => x.stamp s
  | .hold s => s.modFibre x.v.f.id fun f => { f with notBefore := max f.notBefore (s.now + 1) }
  | .trap cause field detail mask offset =>
    x.v.s.raise x.v.f.id ⟨BitVec.ofNat 8 cause, BitVec.ofNat 3 field, BitVec.ofNat 16 detail, mask, x.v.ip,
      BitVec.ofNat 32 offset⟩
  | .fails s cause detail mask => s.raise x.v.f.id ⟨BitVec.ofNat 8 cause, 0, BitVec.ofNat 16 detail, mask, x.v.ip, 0⟩

/-! ## Uncorrectable registers (R463, R464) -/

/-- Whether field D holds data that the instruction reads. -/
def dataInD : Instr → Bool
  | .st _ | .sts _ | .stc _ | .stfe _ | .waddr _ | .bld _ | .bldBc _ | .cp _ | .cpg _ | .cps _ | .cp2d _ | .cpcb _ | .bwst _ | .put _
  | .putsig _ | .get _ => true
  | _ => false

/-- The code of a bad unit that a field of an instruction reads in a lane. -/
def Iss.readsBad (x : Iss) (k words L : Nat) : Option Nat :=
  let o := x.e.field k
  if o.cls = .vec ∨ o.cls = .uni ∨ o.cls = .pred then
    let lane := if k = 1 then L else x.v.patLane o L
    (List.range words).findSome? fun w =>
      let u := regUnit x.v.f o.cls (x.v.regNo o.cls (o.num.toNat + w)) lane
      if x.v.t.bad.contains u then some u.1 else none
  else none

/-- The lanes in which one of n registers of a class is bad. -/
def Iss.badRegs (x : Iss) (cls : Cls) (r n : Nat) : Mask :=
  maskWhere fun L => x.act.getLsbD L && (List.range n).any fun i => x.v.t.bad.contains (regUnit x.v.f cls (x.v.regNo cls (r + i)) L)

/-- Whether a predicate of a number is bad. -/
def Iss.badPred (x : Iss) (p : Nat) : Bool := x.v.t.bad.contains (regUnit x.v.f .pred p 0)

/-- The register sources of an instruction that hold an uncorrectable error, guards among them, and the predicates that it would write
in part: the code and MASK of the trap (R463, R464). -/
def Iss.badSource (x : Iss) (i : Instr) : Option (Nat × Mask) :=
  if x.v.t.bad = [] then none
  else if x.badPred (x.e.ga.toNat % 64) ∨ x.badPred (x.e.gb.toNat % 64) then some (3, x.v.mask)
  else
    let f := i.form
    let reads := [1, 2, 3, 4, 5].filter fun k => decide ((f.slot k).use = .src) || (decide (k = 1) && dataInD i)
    let parts := [1, 4, 5].filter fun k =>
      decide ((f.slot k).use = .dst) && decide ((x.e.field k).cls = .pred) && x.badPred (x.e.field k).num.toNat
    let bad := fun L => reads.findSome? fun k => x.readsBad k (f.slot k).words L
    match (lanesOf x.act).findSome? bad with
    | some c => some (c, maskWhere fun L => x.act.getLsbD L && (bad L).isSome)
    | none => if parts ≠ [] ∧ x.act ≠ 0 ∧ x.act ≠ 0xFFFFFFFF then some (3, x.act) else none

/-- The frame of every instruction: R169, then the checks of step 3 (cause and DETAIL), then uncorrectable sources, then, when ACTIVE is
not empty, the body; with ACTIVE empty nothing is tested and the lanes move on (R410). -/
def issueOn (i : Instr) (x : Iss) (step3 : Iss → Option (Nat × Nat)) (body : Iss → Act) : Act :=
  match i.fault x.v.limits with
  | some (c, f, d) => .trap c f d x.v.mask 0
  | none => match step3 x with
    | some (c, d) => .trap c 0 d x.v.mask 0
    | none => match x.badSource i with
      | some (c, m) => .trap 0x15 0 c m 0
      | none => if x.act = 0 then .next x.v.s else body x

/-- The fields and the literal position of an instruction in a view. -/
def View.issue (v : View) (i : Instr) (e : Enc) : Iss :=
  { v := v, e := e, pos := i.form.lit.getD 0, act := v.active e }

/-- Issues an instruction with its fields: the frame around its body. -/
def issue (i : Instr) (e : Enc) (step3 : Iss → Option (Nat × Nat)) (body : Iss → Act) (s : State) :
    Host.Outcome State Fault Refusal :=
  match s.view with
  | none => .fault .noFibre
  | some v => .next ((v.issue i e).finish (issueOn i (v.issue i e) step3 body))

/-- No check of step 3. -/
def noStep3 : Iss → Option (Nat × Nat) := fun _ => none

/-! ## Reading and writing in a body -/

/-- Src of a FIELD in a lane. -/
def Iss.src (x : Iss) (k : Nat) (ty : Ty) (L : Nat) : Nat := x.v.src x.e x.pos k ty L

/-- A source read once for the fibre: u32. -/
def Iss.u32 (x : Iss) (k : Nat) : Nat := x.src k .u32 0

/-- A source read once for the fibre: i32. -/
def Iss.i32 (x : Iss) (k : Nat) : Int := signed 32 (x.src k .i32 0)

/-- The words of a value, lowest first. -/
def wordsOf (n v : Nat) : List Word := (List.range n).map fun w => BitVec.ofNat 32 (v / 2 ^ (32 * w))

/-- The register writes of a destination of n words: lane L gets the words of `g L`. A uniform destination takes the
value of lane 0 of the function. -/
def Iss.writesTo (x : Iss) (o : Operand) (n : Nat) (lanes : Mask) (g : Nat → Nat) : List RegWrite :=
  let ls : Mask := if o.cls = .uni then 1 else lanes
  let vals := (lanesOf ls).map fun L => (L, g L)
  (List.range n).map fun w =>
    { cls := o.cls, reg := x.v.regNo o.cls (o.num.toNat + w), lanes := ls,
      vals := vals.map fun p => (p.1, BitVec.ofNat 32 (p.2 / 2 ^ (32 * w))) }

/-- Writes of fixed latency: performed now, certain after λ cycles, with flags (R44, R45, R82). -/
def Iss.fixed (x : Iss) (lam : Nat) (ws : List RegWrite) (fl : Nat := 0) : Act :=
  .next ((x.v.s.writeRegs x.v.f.id (some (x.v.s.now + lam)) ws).raiseFlags x.v.f.id (some (x.v.s.now + lam)) fl)

/-- A result of variable latency whose values are known: RESULT_WRITEBACK performs it (R46). -/
def State.addResult (s : State) (fid : Nat) (known : Bool) (ws : List RegWrite) (fl : Nat) : Nat × State :=
  let (r, s) := s.fresh
  (r, { s with results := s.results ++ [{ id := r, fid := fid, known := known, writes := ws, flags := BitVec.ofNat 5 fl }] })

/-- Results of variable latency. -/
def Iss.variable (x : Iss) (ws : List RegWrite) (fl : Nat := 0) : Act :=
  .next (x.v.s.addResult x.v.f.id true ws fl).2

/-- The trap of a run-time operand check: DETAIL 9 (R196, R223). -/
def Iss.badValue (_x : Iss) (field : Nat) (mask : Mask) : Act := .trap 2 field 9 mask 0

/-- The lanes of ACTIVE that pass a test. -/
def Iss.lanes (x : Iss) (p : Nat → Bool) : Mask := maskWhere fun L => x.act.getLsbD L && p L

/-- The fibre waits: ACTIVE holds the IP. -/
def Iss.park (x : Iss) (s : State) (run : Run) (w : Waits) : Act := .moved (s.leave x.v.f.id run w)

/-! ## Code (R166, R168, R199) -/

/-- Whether an IP lies in the code range of the kernel (R199). -/
def Kernel.inRange (k : Kernel) (ip : Nat) : Bool := decide (k.entry.toNat ≤ ip) && decide (ip < k.entry.toNat + k.count.toNat)

/-- The word at an IP, as the code stood when the record was accepted (R166, R168). -/
def Launch.wordAt (l : Launch) (ip : Nat) : BitVec 160 :=
  BitVec.ofNat 160 (leN ((List.range 20).map fun i => SMap.get 0 l.code (20 * ip + i)))

end Sys2Proof.Machine
end

