-- ==== Sys2Proof/Machine/Trans.lean ====
section
/-! DEFINITION. Translation: page walks (R125, R126), walk results (R429), the translation cache (R430), and the
gathering of faults in a core's filter (R431). -/

namespace Sys2Proof.Machine

/-! ## Walks -/

/-- The permission that an access needs, by its bit in a leaf: PR 2, PW 3, PX 4, PA 5 (R126); `any` needs none, and its bit is V, which
every leaf has set (R257). -/
inductive Perm where
  | read | write | fetch | atomic | any
deriving DecidableEq, Repr

/-- The bit in the leaf. -/
def Perm.bit : Perm → Nat
  | .read => 2
  | .write => 3
  | .fetch => 4
  | .atomic => 5
  | .any => 0

/-- DETAIL of `pageperm` (R429). -/
def Perm.detail : Perm → Nat
  | .read => 1
  | .write => 2
  | .atomic => 3
  | .fetch => 4
  | .any => 0

/-- The access type of a fault record (R433). -/
def Perm.acc : Perm → BitVec 4
  | .read => 1
  | .write => 2
  | .atomic => 4
  | .fetch => 8
  | .any => 0

/-- What a walk finds: a leaf and its level, a failure (order in R429, CAUSE, DETAIL), or a missing page and the level
of the entry with V = 0. -/
inductive Walk where
  | leaf (level : Nat) (entry : Nat)
  | bad (order cause detail : Nat)
  | unmapped (level : Nat)
deriving DecidableEq, Repr

/-- log2 of the page size of a leaf level, and the place of the level's index (R125). -/
def levelShift : Nat → Nat
  | 0 => 16
  | 1 => 21
  | 2 => 30
  | 3 => 39
  | _ => 48

/-- The index bits of a level (R125). -/
def levelIndex (level va : Nat) : Nat :=
  if level = 0 then bits va 20 16 else bits va (levelShift level + 8) (levelShift level)

/-- Whether a package is a member of the rack's pool (R129). -/
def State.inPool (s : State) (pa : Nat) : Bool := s.pkg.pool.contains (bits pa 45 39)

/-- Whether an entry is a leaf (R126). -/
def isLeaf (level entry : Nat) : Bool := level = 0 || bitN entry 1

/-- Whether a valid entry is malformed (result 1 of R429). -/
def malformed (level entry : Nat) : Bool :=
  bits entry 11 6 ≠ 0 || bits entry 47 46 ≠ 0 || bits entry 63 53 ≠ 0 || (3 ≤ level && bitN entry 1) ||
    (level ≤ 2 && isLeaf level entry && bits entry 45 12 % 2 ^ (levelShift level - 12) ≠ 0)

/-- The address of an entry: bits 45:12, a multiple of 4 KiB. -/
def entryAddr (entry : Nat) : Nat := bits entry 45 12 * 2 ^ 12

/-- Walks from a table at a level down; `fuel` is the level plus one. -/
def State.walkFrom (s : State) (va : Nat) : Nat → Nat → Walk × State
  | 0, _ => (.unmapped 0, s)
  | level + 1, table =>
    if !s.inPool table then (.bad 2 0x13 6, s)
    else
      let (entry, s) := s.physRead (table + 8 * levelIndex level va) 8
      if !bitN entry 0 then (.unmapped level, s)
      else if malformed level entry then (.bad 1 0x13 5, s)
      else if isLeaf level entry then
        if !s.inPool (entryAddr entry) then (.bad 2 0x13 6, s)
        else if 4 ≤ bits entry 50 48 then (.bad 3 0x14 (bits entry 50 48), s)
        else (.leaf level entry, s)
      else s.walkFrom va level (entryAddr entry)

/-- A walk of a virtual address in a launch context (R125, R340). -/
def State.walk (s : State) (ctx va : Nat) : Walk × State :=
  let (root, s) := s.physRead ctx 8
  s.walkFrom va 5 root

/-! ## Translation -/

/-- What a translation gives: the place of the address, or a failure, or a missing page. -/
inductive Trans where
  | ok (p : Place)
  | bad (order cause detail : Nat)
  | unmapped (level : Nat)
deriving DecidableEq, Repr

/-- The place of an address under a leaf (R127 to R129). -/
def leafPlace (level entry va : Nat) : Place :=
  placeOf (viewOfPlc (bits entry 50 48)) (bits entry 52 51) (entryAddr entry + va % 2 ^ levelShift level)

/-- The leaf that a core has cached for an address (R126). -/
def Core.cached (c : Core) (ctx va : Nat) : Option TlbEntry :=
  c.tlb.find? fun e => e.ctx == ctx && va / 2 ^ levelShift e.level == e.page

/-- Caches a leaf; of 256, the oldest leaves (log 12). -/
def Core.cache (c : Core) (ctx va level entry : Nat) : Core :=
  let e : TlbEntry :=
    { ctx := ctx, level := level, page := va / 2 ^ levelShift level, leaf := BitVec.ofNat 64 entry }
  { c with tlb := (c.tlb ++ [e]).drop (c.tlb.length - 255) }

/-- The translation of an address for a core, through its cache; a cached leaf that does not permit the access is
dropped and the walk decides (R430). -/
def State.translate (s : State) (core ctx va : Nat) (perm : Perm) : Trans × State :=
  let hit := (s.core core).cached ctx va
  match hit.filter fun e => bitN e.leaf.toNat perm.bit with
  | some e => (.ok (leafPlace e.level e.leaf.toNat va), s)
  | none =>
    let s := match hit with
      | some e => s.modCore core fun c => { c with tlb := c.tlb.erase e }
      | none => s
    match s.walk ctx va with
    | (.leaf level entry, s) =>
      let s := s.modCore core fun c => c.cache ctx va level entry
      if bitN entry perm.bit then (.ok (leafPlace level entry va), s) else (.bad 4 0x13 perm.detail, s)
    | (.bad o c d, s) => (.bad o c d, s)
    | (.unmapped level, s) => (.unmapped level, s)

/-- A translation by a firmware core or a distributor, which caches nothing here (R330, R346). -/
def State.translateNoCache (s : State) (ctx va : Nat) (perm : Perm) : Trans × State :=
  match s.walk ctx va with
  | (.leaf level entry, s) =>
    if bitN entry perm.bit then (.ok (leafPlace level entry va), s) else (.bad 4 0x13 perm.detail, s)
  | (.bad o c d, s) => (.bad o c d, s)
  | (.unmapped level, s) => (.unmapped level, s)

/-- The order in R429 of a failure, from its CAUSE and DETAIL. -/
def walkOrder (cause detail : Nat) : Nat :=
  if cause = 0x14 then 3 else if detail = 5 then 1 else if detail = 6 then 2 else 4

/-- Of the failures that lanes met, in lane order: the lanes that met the first result of R429, with the CAUSE and DETAIL
of the lowest of them. -/
def worstWalk (fs : List (Nat × Nat × Nat)) : Option (Mask × Nat × Nat) :=
  [1, 2, 3, 4].findSome? fun o =>
    let hit := fs.filter fun p => walkOrder p.2.1 p.2.2 == o
    match hit with
    | [] => none
    | p :: _ => some (maskOf (hit.map Prod.fst), p.2.1, p.2.2)

/-! ## Structures in a context's virtual space, read and written by firmware -/

/-- Reads n bytes at a virtual address, byte by byte across pages; none when a byte meets a walk result. -/
def State.virtRead (s : State) (ctx : Nat) : Nat → Nat → Option Nat × State
  | _, 0 => (some 0, s)
  | va, n + 1 =>
    match s.translateNoCache ctx va .read with
    | (.ok p, s) =>
      let (b, s) := s.homeRead p.key 1
      match s.virtRead ctx (va + 1) n with
      | (some v, s) => (some (b + 256 * v), s)
      | (none, s) => (none, s)
    | (_, s) => (none, s)

/-- Writes the n low bytes of a value at a virtual address; bytes whose page gives a walk result are not written, and the
answer is then false. -/
def State.virtWrite (s : State) (ctx : Nat) : Nat → Nat → Nat → Bool × State
  | _, 0, _ => (true, s)
  | va, n + 1, v =>
    match s.translateNoCache ctx va .write with
    | (.ok p, s) =>
      let s := s.homeWrite p.key 1 (v % 256)
      s.virtWrite ctx (va + 1) n (v / 256)
    | (_, s) =>
      let r := s.virtWrite ctx (va + 1) n (v / 256)
      (false, r.2)

/-! ## Fault gathering (R431) -/

/-- The 64 KiB granule of an address. -/
def granuleOf (va : Nat) : Nat := va / 65536 * 65536

/-- A missing page that an instruction met: granule, access, level, the PLO and HT of the record, and whether another record asked
for another placement. -/
structure Miss where
  va : Nat
  acc : BitVec 4
  level : Nat
  plo : BitVec 3
  ht : BitVec 2
  conflict : Bool := false
deriving DecidableEq, Repr

/-- Whether a request for a placement differs from the one that opened a key (R432): another nonzero PLO, or PLO 3 and another HT. -/
def placeClash (plo : BitVec 3) (ht : BitVec 2) (plo' : BitVec 3) (ht' : BitVec 2) : Bool :=
  (decide (plo' ≠ 0) && decide (plo' ≠ plo)) || (decide (plo' = 3) && decide (ht' ≠ ht))

/-- The misses of one instruction, one for each granule with the access types joined (R431). -/
def mergeMisses : List Miss → List Miss
  | [] => []
  | m :: ms =>
    let rest := mergeMisses ms
    match rest.find? fun x => x.va == m.va with
    | some x =>
      { m with acc := m.acc ||| x.acc, conflict := m.conflict || x.conflict || placeClash m.plo m.ht x.plo x.ht } ::
        rest.filter fun y => y.va != m.va
    | none => m :: rest

/-- Puts one miss into a filter: a present key takes the access type, one waiter, and a mark where another placement is asked for; a
new key needs a free entry of the 32 (R85, R431). -/
def filterAdd (fs : List FilterEntry) (ctx : Nat) (m : Miss) : Option (List FilterEntry) :=
  if fs.any fun x => x.ctx == ctx && x.va == m.va then
    some (replaceBy (fun x => x.ctx == ctx && x.va == m.va)
      (fun x => { x with
        acc := x.acc ||| m.acc, waiters := x.waiters + 1, conflict := x.conflict || m.conflict || placeClash x.plo x.ht m.plo m.ht }) fs)
  else if fs.length < 32 then
    let f : FilterEntry :=
      { ctx := ctx, va := m.va, acc := m.acc, level := m.level, plo := m.plo, ht := m.ht, conflict := m.conflict, waiters := 1 }
    some (fs ++ [f])
  else none

/-- Puts every miss into a filter, or none when one finds no entry. -/
def filterAll (ctx : Nat) : List Miss → List FilterEntry → Option (List FilterEntry)
  | [], fs => some fs
  | m :: ms, fs => (filterAdd fs ctx m).bind (filterAll ctx ms)

/-- Records the misses of an instruction or operation in its core's filter; none when an entry is wanting (R431). -/
def State.gather (s : State) (core ctx : Nat) (ms : List Miss) : Option State :=
  (filterAll ctx (mergeMisses ms) (s.core core).filter).map fun fs => s.modCore core fun c => { c with filter := fs }

/-- The fibre enters Held on the granules of its misses, or waits for room in the filter (R431, R435). -/
def State.holdOn (s : State) (fid core ctx : Nat) (ms : List Miss) : State :=
  match s.gather core ctx ms with
  | some s => s.leave fid .held (.granules ctx ((mergeMisses ms).map Miss.va))
  | none => s.leave fid .held .room

/-! ## Instruction fetch (R166, R419, R435) -/

/-- What a fetch meets: the bytes are at hand, a page is missing, or a walk failure. -/
inductive Fetch where
  | ok
  | held (m : Miss)
  | bad (cause detail : Nat)
deriving DecidableEq, Repr

/-- Fetches one line of code: it needs PX, and a line that could not be read when the record was accepted is read now. -/
def State.fetchLine (s : State) (core : Nat) (lid va : Nat) : Fetch × State :=
  match s.launch? lid with
  | none => (.ok, s)
  | some l =>
    match s.translate core l.ctx va .fetch with
    | (.bad _ c d, s) => (.bad c d, s)
    | (.unmapped level, s) => (.held { va := granuleOf va, acc := 8, level := level, plo := 0, ht := 0 }, s)
    | (.ok p, s) =>
      if l.codeLines.contains va then (.ok, s)
      else
        let (v, s) := s.homeRead p.key 128
        (.ok, s.modLaunch lid fun l =>
          { l with
            code := SMap.setLanes 0 l.code (va - l.codeBase) (List.range 128) fun i => BitVec.ofNat 8 (v / 2 ^ (8 * i)),
            codeLines := l.codeLines ++ [va] })

/-- Fetches the one or two lines of the word at an IP (R168). The second is tested only once the first is at hand: the manual gives no
order of the two (DESIGN CHOICE, log 78). -/
def State.fetch (s : State) (core : Nat) (l : Launch) (ip : Nat) : Fetch × State :=
  let first := lineOf (l.codeBase + 20 * ip)
  let last := lineOf (l.codeBase + 20 * ip + 19)
  match s.fetchLine core l.id first with
  | (.ok, s) => if last = first then (.ok, s) else s.fetchLine core l.id last
  | r => r

end Sys2Proof.Machine
end

