-- ==== Sys2Proof/Machine/Integer.lean ====
section
/-! DEFINITION. The integer and bit group (R205 to R213) and predicate logic (R214, R215). -/

namespace Sys2Proof.Machine

/-! ## Values -/

/-- Element e of a value as an integer of the type. -/
def Ty.int? (ty : Ty) (x e : Nat) : Int := if ty.sg then signed ty.n (ty.elem x e) else ty.elem x e

/-- Maps the elements of a value. -/
def mapElems (ty : Ty) (g : Nat → Int) : Nat := packElems ty.n ((List.range ty.count).map fun e => wrap ty.n (g e))

/-- Clamps to the type's range (R193, R206). -/
def Ty.sat (ty : Ty) (x : Int) : Int := if ty.sg then satS x ty.n else satU x ty.n

/-- Quotient rounded toward zero, with the corners of R100. -/
def divInt (ty : Ty) (a b : Int) : Int :=
  if b = 0 then
    if ty.sg then (if 0 ≤ a then (2 ^ (ty.n - 1) : Nat) - 1 else -(2 ^ (ty.n - 1) : Nat))
    else (2 ^ ty.n : Nat) - 1
  else a.tdiv b

/-- Remainder with the sign of the dividend; by zero, the dividend (R100). -/
def remInt (a b : Int) : Int := if b = 0 then a else a.tmod b

/-- floor(a / 2^c). -/
def sarInt (a : Int) (c : Nat) : Int := a / (2 ^ c : Nat)

/-- A bit field of a value, as `bfe` gives it (R210). -/
def bfeVal (signed_ : Bool) (n a pos len : Nat) : Nat :=
  let bit := fun i => if pos + i < n then bitN a (pos + i) else (signed_ && bitN a (n - 1))
  let f := packElems 1 ((List.range (min len n)).map fun i => b2n (bit i))
  if len = 0 then 0
  else if signed_ ∧ len < n then wrap n (signed len f) else f

/-- A field inserted into a base, as `bfi` gives it (R210). -/
def bfiVal (n a b pos len : Nat) : Nat :=
  packElems 1 ((List.range n).map fun j => b2n (if pos ≤ j ∧ j < pos + len then bitN a (j - pos) else bitN b j))

/-- Leading zeros of n bits. -/
def clzVal (n a : Nat) : Nat := n - bitLen a

/-- Trailing zeros of n bits; n for zero. -/
def ctzVal (n a : Nat) : Nat := ((List.range n).find? fun i => bitN a i).getD n

/-- All the bits reversed. -/
def brevVal (n a : Nat) : Nat := packElems 1 ((List.range n).map fun i => b2n (bitN a (n - 1 - i)))

/-- One byte of `bsel` by its selector byte (R211). -/
def bselByte (src sel : Nat) : Nat :=
  let b := bits src (8 * (sel % 8) + 7) (8 * (sel % 8))
  match sel / 16 % 4 with
  | 0 => b
  | 1 => 0
  | 2 => if 128 ≤ b then 255 else 0
  | _ => brevVal 8 b

/-- `dsh`: a 64-bit value shifted by a signed count saturated at 32 (R209). -/
def dshVal (a b : Nat) (k : Int) : Nat :=
  let x := a * 2 ^ 32 + b
  if 0 ≤ k then x * 2 ^ min k.toNat 32 / 2 ^ 32 % 2 ^ 32 else x / 2 ^ min (-k).toNat 32 % 2 ^ 32

/-- The comparisons of `cmp` (R212). -/
def cmpInt (code : Nat) (a b : Int) : Bool :=
  match code with
  | 0 => a = b
  | 1 => a ≠ b
  | 2 => a < b
  | 3 => a ≤ b
  | 4 => b < a
  | _ => b ≤ a

/-! ## Shapes -/

/-- Writes D with a value of each lane; λ of R44. A uniform D takes the value of lane 0 (R195). -/
def Iss.put (x : Iss) (lam n : Nat) (g : Nat → Nat) : Act := x.fixed lam (x.writesTo x.e.d n x.act g)

/-- The type of the instruction. -/
def Iss.ty (x : Iss) : Ty := Ty.int x.e.ty

/-- An instruction of one source, element by element (R206). -/
def Iss.map1 (x : Iss) (g : Ty → Int → Int) : Act :=
  let ty := x.ty
  x.put 4 ty.words fun L =>
    let a := x.src 2 ty L
    mapElems ty fun e => g ty (ty.int? a e)

/-- The elements of two sources combined. -/
def Iss.elems2 (x : Iss) (g : Ty → Int → Int → Int) (L : Nat) : Nat :=
  let ty := x.ty
  let a := x.src 2 ty L
  let b := x.src 3 ty L
  mapElems ty fun e => g ty (ty.int? a e) (ty.int? b e)

/-- An instruction of two sources, element by element. -/
def Iss.map2 (x : Iss) (g : Ty → Int → Int → Int) : Act := x.put 4 x.ty.words (x.elems2 g)

/-- An instruction of two sources and variable latency. -/
def Iss.map2Var (x : Iss) (g : Ty → Int → Int → Int) : Act :=
  x.variable (x.writesTo x.e.d x.ty.words x.act (x.elems2 g))

/-- An instruction of three sources, element by element. -/
def Iss.map3 (x : Iss) (g : Ty → Int → Int → Int → Int) : Act :=
  let ty := x.ty
  x.put 4 ty.words fun L =>
    let a := x.src 2 ty L
    let b := x.src 3 ty L
    let c := x.src 4 ty L
    mapElems ty fun e => g ty (ty.int? a e) (ty.int? b e) (ty.int? c e)

/-- A shift of each element by the control source B (R209). -/
def Iss.shift (x : Iss) (g : Ty → Int → Nat → Int) : Act :=
  let ty := x.ty
  x.put 4 ty.words fun L =>
    let a := x.src 2 ty L
    let c := x.src 3 .u32 L
    mapElems ty fun e => g ty (ty.int? a e) c

/-- An instruction on bit patterns: one source, a result of `dw` words. -/
def Iss.bits1 (x : Iss) (dw : Nat) (g : Ty → Nat → Nat) : Act :=
  let ty := x.ty
  x.put 4 dw fun L => g ty (x.src 2 ty L)

/-- An instruction on bit patterns of two sources. -/
def Iss.bits2 (x : Iss) (g : Ty → Nat → Nat → Nat) : Act :=
  let ty := x.ty
  x.put 4 ty.words fun L => g ty (x.src 2 ty L) (x.src 3 ty L)

/-! ## Meanings -/

/-- MOV (R206). -/
def execMov (e : Enc) (s : State) : Host.Outcome State Fault Refusal :=
  issue (.mov e) e noStep3 (fun x => x.bits1 x.ty.words fun _ a => a) s

/-- MOVL (R206). -/
def execMovl (e : Enc) (s : State) : Host.Outcome State Fault Refusal :=
  issue (.movl e) e noStep3 (fun x => x.bits1 x.ty.words fun _ a => a) s

/-- ADD (R206). -/
def execAdd (e : Enc) (s : State) : Host.Outcome State Fault Refusal :=
  issue (.add e) e noStep3 (fun x => x.map2 fun _ a b => a + b) s

/-- SUB (R206). -/
def execSub (e : Enc) (s : State) : Host.Outcome State Fault Refusal :=
  issue (.sub e) e noStep3 (fun x => x.map2 fun _ a b => a - b) s

/-- ADDS (R206). -/
def execAdds (e : Enc) (s : State) : Host.Outcome State Fault Refusal :=
  issue (.adds e) e noStep3 (fun x => x.map2 fun ty a b => ty.sat (a + b)) s

/-- SUBS (R206). -/
def execSubs (e : Enc) (s : State) : Host.Outcome State Fault Refusal :=
  issue (.subs e) e noStep3 (fun x => x.map2 fun ty a b => ty.sat (a - b)) s

/-- D and the carry or borrow out of a lane's integer total (R207). -/
def Iss.carry (x : Iss) (t : Nat → Int) : Act :=
  x.fixed 4
    (x.writesTo x.e.d 1 x.act (fun L => wrap 32 (t L)) ++
      x.writesTo x.e.e 1 x.act fun L => b2n (decide (t L < 0) || decide (2 ^ 32 ≤ t L)))

/-- ADDC (R207). -/
def execAddc (e : Enc) (s : State) : Host.Outcome State Fault Refusal :=
  issue (.addc e) e noStep3
    (fun x => x.carry fun L => (x.src 2 .u32 L : Int) + x.src 3 .u32 L + x.src 4 .u32 L) s

/-- SUBB (R207). -/
def execSubb (e : Enc) (s : State) : Host.Outcome State Fault Refusal :=
  issue (.subb e) e noStep3
    (fun x => x.carry fun L => (x.src 2 .u32 L : Int) - x.src 3 .u32 L - x.src 4 .u32 L) s

/-- MUL (R206). -/
def execMul (e : Enc) (s : State) : Host.Outcome State Fault Refusal :=
  issue (.mul e) e noStep3 (fun x => x.map2 fun _ a b => a * b) s

/-- MULHI (R206). -/
def execMulhi (e : Enc) (s : State) : Host.Outcome State Fault Refusal :=
  issue (.mulhi e) e noStep3 (fun x => x.map2 fun ty a b => a * b / (2 ^ ty.n : Nat)) s

/-- MAD (R206). -/
def execMad (e : Enc) (s : State) : Host.Outcome State Fault Refusal :=
  issue (.mad e) e noStep3 (fun x => x.map3 fun _ a b c => a * b + c) s

/-- MADW (R208). -/
def execMadw (e : Enc) (s : State) : Host.Outcome State Fault Refusal :=
  issue (.madw e) e noStep3 (fun x =>
    let wide := if x.ty.sg then Ty.i64 else Ty.u64
    x.put 4 2 fun L =>
      wrap 64 (x.ty.int? (x.src 2 x.ty L) 0 * x.ty.int? (x.src 3 x.ty L) 0 + wide.int? (x.src 4 wide L) 0)) s

/-- DIV (R100, R206). -/
def execDiv (e : Enc) (s : State) : Host.Outcome State Fault Refusal :=
  issue (.div e) e noStep3 (fun x => x.map2Var divInt) s

/-- REM (R100, R206). -/
def execRem (e : Enc) (s : State) : Host.Outcome State Fault Refusal :=
  issue (.rem e) e noStep3 (fun x => x.map2Var fun _ a b => remInt a b) s

/-- MIN (R206). -/
def execMin (e : Enc) (s : State) : Host.Outcome State Fault Refusal :=
  issue (.min e) e noStep3 (fun x => x.map2 fun _ a b => min a b) s

/-- MAX (R206). -/
def execMax (e : Enc) (s : State) : Host.Outcome State Fault Refusal :=
  issue (.max e) e noStep3 (fun x => x.map2 fun _ a b => max a b) s

/-- Saturation of `abs.sat` and `neg.sat`, RM 5 (R213). -/
def Iss.satIf (x : Iss) (ty : Ty) (r : Int) : Int := if x.e.rm = 5 then satS r ty.n else r

/-- ABS (R213). -/
def execAbs (e : Enc) (s : State) : Host.Outcome State Fault Refusal :=
  issue (.abs e) e noStep3 (fun x => x.map1 fun ty a => x.satIf ty a.natAbs) s

/-- NEG (R213). -/
def execNeg (e : Enc) (s : State) : Host.Outcome State Fault Refusal :=
  issue (.neg e) e noStep3 (fun x => x.map1 fun ty a => x.satIf ty (-a)) s

/-- AND (R206). -/
def execAnd (e : Enc) (s : State) : Host.Outcome State Fault Refusal :=
  issue (.and e) e noStep3 (fun x => x.bits2 fun _ a b => a &&& b) s

/-- OR (R206). -/
def execOr (e : Enc) (s : State) : Host.Outcome State Fault Refusal :=
  issue (.or e) e noStep3 (fun x => x.bits2 fun _ a b => a ||| b) s

/-- XOR (R206). -/
def execXor (e : Enc) (s : State) : Host.Outcome State Fault Refusal :=
  issue (.xor e) e noStep3 (fun x => x.bits2 fun _ a b => a ^^^ b) s

/-- ANDN (R206). -/
def execAndn (e : Enc) (s : State) : Host.Outcome State Fault Refusal :=
  issue (.andn e) e noStep3 (fun x => x.bits2 fun ty a b => a &&& (2 ^ ty.bits - 1 - b)) s

/-- NOT (R206). -/
def execNot (e : Enc) (s : State) : Host.Outcome State Fault Refusal :=
  issue (.not e) e noStep3 (fun x => x.bits1 x.ty.words fun ty a => 2 ^ ty.bits - 1 - a) s

/-- SHL (R209). -/
def execShl (e : Enc) (s : State) : Host.Outcome State Fault Refusal :=
  issue (.shl e) e noStep3 (fun x => x.shift fun ty a c => if ty.n ≤ c then 0 else a * (2 ^ c : Nat)) s

/-- SHR (R209). -/
def execShr (e : Enc) (s : State) : Host.Outcome State Fault Refusal :=
  issue (.shr e) e noStep3 (fun x => x.shift fun ty a c => if ty.n ≤ c then 0 else sarInt a c) s

/-- SAR (R209). -/
def execSar (e : Enc) (s : State) : Host.Outcome State Fault Refusal :=
  issue (.sar e) e noStep3 (fun x => x.shift fun ty a c => sarInt a (min c (ty.n - 1))) s

/-- DSH (R209). -/
def execDsh (e : Enc) (s : State) : Host.Outcome State Fault Refusal :=
  issue (.dsh e) e noStep3 (fun x =>
    x.put 4 1 fun L => dshVal (x.src 2 .u32 L) (x.src 3 .u32 L) (signed 32 (x.src 4 .i32 L))) s

/-- ROT (R209). -/
def execRot (e : Enc) (s : State) : Host.Outcome State Fault Refusal :=
  issue (.rot e) e noStep3 (fun x => x.shift fun ty a c =>
    a * (2 ^ (c % ty.n) : Nat) + a / (2 ^ (ty.n - c % ty.n) : Nat)) s

/-- BFE (R210). -/
def execBfe (e : Enc) (s : State) : Host.Outcome State Fault Refusal :=
  issue (.bfe e) e noStep3 (fun x =>
    x.put 4 x.ty.words fun L =>
      let c := x.src 3 .u32 L
      bfeVal x.ty.sg x.ty.n (x.src 2 x.ty L) (c % 256) (c / 256 % 256)) s

/-- BFI (R210). -/
def execBfi (e : Enc) (s : State) : Host.Outcome State Fault Refusal :=
  issue (.bfi e) e noStep3 (fun x =>
    x.put 4 x.ty.words fun L =>
      let c := x.src 4 .u32 L
      bfiVal x.ty.n (x.src 2 x.ty L) (x.src 3 x.ty L) (c % 256) (c / 256 % 256)) s

/-- POPC (R211). -/
def execPopc (e : Enc) (s : State) : Host.Outcome State Fault Refusal :=
  issue (.popc e) e noStep3 (fun x => x.bits1 1 fun ty a => popCount ty.n a) s

/-- CLZ (R211). -/
def execClz (e : Enc) (s : State) : Host.Outcome State Fault Refusal :=
  issue (.clz e) e noStep3 (fun x => x.bits1 1 fun ty a => clzVal ty.n a) s

/-- CTZ (R211). -/
def execCtz (e : Enc) (s : State) : Host.Outcome State Fault Refusal :=
  issue (.ctz e) e noStep3 (fun x => x.bits1 1 fun ty a => ctzVal ty.n a) s

/-- BREV (R211). -/
def execBrev (e : Enc) (s : State) : Host.Outcome State Fault Refusal :=
  issue (.brev e) e noStep3 (fun x => x.bits1 x.ty.words fun ty a => brevVal ty.n a) s

/-- BSEL (R211). -/
def execBsel (e : Enc) (s : State) : Host.Outcome State Fault Refusal :=
  issue (.bsel e) e noStep3 (fun x =>
    x.put 4 1 fun L =>
      let src := x.src 3 .u32 L + 2 ^ 32 * x.src 2 .u32 L
      let c := x.src 4 .u32 L
      packElems 8 ((List.range 4).map fun i => bselByte src (bits c (8 * i + 7) (8 * i)))) s

/-- SAD (R212). -/
def execSad (e : Enc) (s : State) : Host.Outcome State Fault Refusal :=
  issue (.sad e) e noStep3 (fun x =>
    x.put 4 1 fun L =>
      let ty := x.ty
      let a := x.src 2 ty L
      let b := x.src 3 ty L
      let sum := ((List.range ty.count).map fun e => (ty.int? a e - ty.int? b e).natAbs).foldl (· + ·) 0
      (x.src 4 .u32 L + sum) % 2 ^ 32) s

/-- CMP (R212). -/
def execCmp (e : Enc) (s : State) : Host.Outcome State Fault Refusal :=
  issue (.cmp e) e noStep3 (fun x =>
    x.put 4 1 fun L => b2n (cmpInt e.var (x.ty.int? (x.src 2 x.ty L) 0) (x.ty.int? (x.src 3 x.ty L) 0))) s

/-- CSEL (R212). -/
def execCsel (e : Enc) (s : State) : Host.Outcome State Fault Refusal :=
  issue (.csel e) e noStep3 (fun x =>
    x.put 4 x.ty.words fun L => if x.src 4 .u32 L = 1 then x.src 2 x.ty L else x.src 3 x.ty L) s

/-! ## Predicate logic (R214, R215) -/

/-- Writes predicate D with a bit of each lane; λ 2 (R44). -/
def Iss.putPred (x : Iss) (g : Nat → Bool) : Act := x.put 2 1 fun L => b2n (g L)

/-- A predicate source. -/
def Iss.bit (x : Iss) (k L : Nat) : Bool := x.src k .u32 L = 1

/-- PAND (R214). -/
def execPand (e : Enc) (s : State) : Host.Outcome State Fault Refusal :=
  issue (.pand e) e noStep3 (fun x => x.putPred fun L => x.bit 2 L && x.bit 3 L) s

/-- POR (R214). -/
def execPor (e : Enc) (s : State) : Host.Outcome State Fault Refusal :=
  issue (.por e) e noStep3 (fun x => x.putPred fun L => x.bit 2 L || x.bit 3 L) s

/-- PXOR (R214). -/
def execPxor (e : Enc) (s : State) : Host.Outcome State Fault Refusal :=
  issue (.pxor e) e noStep3 (fun x => x.putPred fun L => x.bit 2 L != x.bit 3 L) s

/-- PNOT (R214). -/
def execPnot (e : Enc) (s : State) : Host.Outcome State Fault Refusal :=
  issue (.pnot e) e noStep3 (fun x => x.putPred fun L => !x.bit 2 L) s

/-- PSET_NE (R214). -/
def execPsetNe (e : Enc) (s : State) : Host.Outcome State Fault Refusal :=
  issue (.psetNe e) e noStep3 (fun x => x.putPred fun L => decide (x.src 2 .u32 L ≠ 0)) s

/-- PSET_MASK (R214). -/
def execPsetMask (e : Enc) (s : State) : Host.Outcome State Fault Refusal :=
  issue (.psetMask e) e noStep3 (fun x => x.putPred fun L => bitN (x.src 2 .u32 L) L) s

/-- PGET (R215): every stored bit counts, whatever the state of its lane. -/
def execPget (e : Enc) (s : State) : Host.Outcome State Fault Refusal :=
  issue (.pget e) e noStep3 (fun x =>
    let w := (maskWhere fun j => x.v.pred e.a.num.toNat j != e.a.neg).toNat
    x.put 2 1 fun _ => w) s

end Sys2Proof.Machine
end

