-- ==== Sys2Proof/Machine/Float.lean ====
section
/-! DEFINITION. The floating-point group (R221 to R230). -/

namespace Sys2Proof.Machine

/-! ## Modes and shapes -/

/-- Mode(): the mode that RM names, or that of `%rmode` (R94, R180, R193). -/
def Iss.mode (x : Iss) : Nat :=
  match x.e.rm.toNat with
  | 0 | 5 => x.v.f.rmode.toNat % 4
  | 6 => 0
  | n => n - 1

/-- Whether RM selects saturation (R180). -/
def Iss.saturates (x : Iss) : Bool := x.e.rm = 5 || x.e.rm = 6

/-- The type of the instruction (R184). -/
def Iss.fty (x : Iss) : Ty := Ty.fp x.e.ty

/-- The format of its elements. -/
def Iss.fmt (x : Iss) : Fmt := fmtOfTy x.e.ty

/-- The lanes that an instruction computes in: ACTIVE, or lane 0 alone on the uniform datapath (R222). -/
def Iss.datapath (x : Iss) : List Nat := if x.e.d.cls = .uni then [0] else lanesOf x.act

/-- A value and flags of each lane: D is written, and the flags of every lane merge (R82, R221). -/
def Iss.putFlags (x : Iss) (lam n : Nat) (g : Nat → Nat × Nat) : Act :=
  x.fixed lam (x.writesTo x.e.d n x.act fun L => (g L).1) (orFlags (x.datapath.map fun L => (g L).2))

/-- The same with variable latency. -/
def Iss.putFlagsVar (x : Iss) (n : Nat) (g : Nat → Nat × Nat) : Act :=
  x.variable (x.writesTo x.e.d n x.act fun L => (g L).1) (orFlags (x.datapath.map fun L => (g L).2))

/-- Packs the results of the elements of a lane, with their flags. -/
def packFlags (ty : Ty) (g : Nat → Nat × Nat) : Nat × Nat :=
  let rs := (List.range ty.count).map g
  (packElems ty.n (rs.map Prod.fst), orFlags (rs.map Prod.snd))

/-- Each element of one source. -/
def Iss.each1 (x : Iss) (g : Nat → Nat × Nat) (L : Nat) : Nat × Nat :=
  let a := x.src 2 x.fty L
  packFlags x.fty fun e => g (x.fty.elem a e)

/-- Each element of two sources. -/
def Iss.each2 (x : Iss) (g : Nat → Nat → Nat × Nat) (L : Nat) : Nat × Nat :=
  let a := x.src 2 x.fty L
  let b := x.src 3 x.fty L
  packFlags x.fty fun e => g (x.fty.elem a e) (x.fty.elem b e)

/-- Each element of three sources. -/
def Iss.each3 (x : Iss) (g : Nat → Nat → Nat → Nat × Nat) (L : Nat) : Nat × Nat :=
  let a := x.src 2 x.fty L
  let b := x.src 3 x.fty L
  let c := x.src 4 x.fty L
  packFlags x.fty fun e => g (x.fty.elem a e) (x.fty.elem b e) (x.fty.elem c e)

/-- Rounds an exact result into a format and joins its flags with those of the operation and of signalling NaNs. -/
def deliver (f : Fmt) (mode : Nat) (ops : List Val) (r : Val × Nat) : Nat × Nat :=
  let p := f.round mode false r.1
  (p.1, p.2 ||| r.2 ||| snanFlag ops)

/-! ## Arithmetic on elements (R225) -/

/-- a + b. -/
def faddElem (f : Fmt) (mode a b : Nat) : Nat × Nat :=
  let x := f.value a
  let y := f.value b
  deliver f mode [x, y] (x.add mode y)

/-- a − b. -/
def fsubElem (f : Fmt) (mode a b : Nat) : Nat × Nat :=
  let x := f.value a
  let y := f.value b
  deliver f mode [x, y] (x.add mode y.neg)

/-- a × b. -/
def fmulElem (f : Fmt) (mode a b : Nat) : Nat × Nat :=
  let x := f.value a
  let y := f.value b
  deliver f mode [x, y] (x.mul y)

/-- a × b + c, rounded once; 0 × ∞ raises NV even beside a quiet NaN. -/
def ffmaElem (f : Fmt) (mode a b c : Nat) : Nat × Nat :=
  let x := f.value a
  let y := f.value b
  let z := f.value c
  let p := x.mul y
  let r := p.1.add mode z
  deliver f mode [x, y, z] (r.1, r.2 ||| p.2)

/-- a / b: 0 / 0 and ∞ / ∞ are invalid, a finite nonzero over zero is an infinity with DZ. -/
def fdivVal (f : Fmt) (mode : Nat) (x y : Val) : Nat × Nat :=
  match x, y with
  | .nan _, _ => (f.nanEnc, 0)
  | _, .nan _ => (f.nanEnc, 0)
  | .inf _, .inf _ => (f.nanEnc, NV)
  | .inf s, .fin t _ _ => (f.sign (s != t) + f.infEnc, 0)
  | .fin s _ _, .inf t => (f.sign (s != t), 0)
  | .fin s m e, .fin t n g =>
    if n = 0 then (if m = 0 then (f.nanEnc, NV) else (f.sign (s != t) + f.infEnc, DZ))
    else
      let a := frac m e
      let b := frac n g
      f.roundQ mode false (s != t) (a.1 * b.2) (a.2 * b.1)

/-- a / b on bits. -/
def fdivElem (f : Fmt) (mode a b : Nat) : Nat × Nat :=
  let x := f.value a
  let y := f.value b
  let r := fdivVal f mode x y
  (r.1, r.2 ||| snanFlag [x, y])

/-! ## Minimum, maximum, comparison (R226, R227) -/

/-- `fmin`, `fmax` (number wins over NaN) and `fminx`, `fmaxx` (NaN wins), on bits; never rounded (R226). -/
def fminmax (f : Fmt) (big strict : Bool) (a b : Nat) : Nat × Nat :=
  let x := f.value a
  let y := f.value b
  let r :=
    if x.isNan && y.isNan then f.nanEnc
    else if x.isNan then (if strict then f.nanEnc else b)
    else if y.isNan then (if strict then f.nanEnc else a)
    else if big then (if x.below y then b else a)
    else (if y.below x then b else a)
  (r, snanFlag [x, y])

/-- The conditions of `fcmp` (R227). -/
def fcmpVal (code : Nat) (x y : Val) : Bool :=
  if x.isNan || y.isNan then code = 1 || code = 7
  else
    let c := x.cmp y
    match code with
    | 0 => c = 0
    | 1 => c ≠ 0
    | 2 => c < 0
    | 3 => c ≤ 0
    | 4 => 0 < c
    | 5 => 0 ≤ c
    | 6 => true
    | _ => false

/-- `fclamp` (R228). -/
def fclampElem (f : Fmt) (a b c : Nat) : Nat × Nat :=
  let x := f.value a
  let lo := f.value b
  let hi := f.value c
  let fl := snanFlag [x, lo, hi]
  if x.isNan then (f.nanEnc, fl)
  else
    let u := if lo.isNan then a else if x.below lo then b else a
    (if hi.isNan then u else if hi.below (f.value u) then c else u, fl)

/-- `frnd` (R228). -/
def frndElem (f : Fmt) (mode a : Nat) : Nat × Nat := (f.integral mode (f.value a), snanFlag [f.value a])

/-- `fscale`: a × 2^n. A count beyond ±600 acts as ±600, which carries every finite value out of every format (R228). -/
def fscaleElem (f : Fmt) (mode a : Nat) (n : Int) : Nat × Nat :=
  let x := f.value a
  let y := match x with
    | .fin s m e => Val.fin s m (e + max (-600) (min 600 n))
    | v => v
  deliver f mode [x] (y, 0)

/-- `fclass`: one bit (R229). -/
def fclassElem (f : Fmt) (a : Nat) : Nat :=
  match f.value a with
  | .nan sig => if sig then 1 else 2
  | .inf neg => if neg then 4 else 512
  | .fin neg m _ =>
    let normal := decide (2 ^ f.mb ≤ m)
    if m = 0 then (if neg then 32 else 64)
    else if neg then (if normal then 8 else 16)
    else (if normal then 256 else 128)

/-! ## Dot products (R230) -/

/-- An exact sum of values: NaN and mixed infinities give NaN, and the flag is NV for the latter. -/
def sumVals (mode : Nat) : List Val → Val × Nat
  | [] => (.fin false 0 0, 0)
  | [v] => (v, 0)
  | v :: vs =>
    let r := sumVals mode vs
    let p := v.add mode r.1
    (p.1, p.2 ||| r.2)

/-- Whether a list of values holds infinities of both signs. -/
def mixedInf (vs : List Val) : Bool := vs.any (fun v => v = .inf true) && vs.any fun v => v = .inf false

/-- The dot product of pairs with c, rounded once to FP32; the sign of an exact zero is that of `fadd` (R225, R230). -/
def fdotVals (mode : Nat) (ps : List (Val × Val)) (c : Val) : Nat × Nat :=
  let prods := ps.map fun p => p.1.mul p.2
  let terms := c :: prods.map Prod.fst
  let inputs := c :: ps.flatMap fun p => [p.1, p.2]
  let nv := orFlags (prods.map Prod.snd) ||| flagIf (mixedInf terms) NV ||| snanFlag inputs
  if terms.any Val.isNan || mixedInf terms then (Fmt.f32.nanEnc, nv)
  else
    let p := Fmt.f32.round mode false (sumVals mode terms).1
    (p.1, p.2 ||| nv)

/-! ## Meanings -/

/-- FADD (R225). -/
def execFadd (e : Enc) (s : State) : Host.Outcome State Fault Refusal :=
  issue (.fadd e) e noStep3 (fun x => x.putFlags 4 1 (x.each2 (faddElem x.fmt x.mode))) s

/-- FSUB (R225). -/
def execFsub (e : Enc) (s : State) : Host.Outcome State Fault Refusal :=
  issue (.fsub e) e noStep3 (fun x => x.putFlags 4 1 (x.each2 (fsubElem x.fmt x.mode))) s

/-- FMUL (R225). -/
def execFmul (e : Enc) (s : State) : Host.Outcome State Fault Refusal :=
  issue (.fmul e) e noStep3 (fun x => x.putFlags 4 1 (x.each2 (fmulElem x.fmt x.mode))) s

/-- FFMA (R225). -/
def execFfma (e : Enc) (s : State) : Host.Outcome State Fault Refusal :=
  issue (.ffma e) e noStep3 (fun x => x.putFlags 4 1 (x.each3 (ffmaElem x.fmt x.mode))) s

/-- FMIN (R226). -/
def execFmin (e : Enc) (s : State) : Host.Outcome State Fault Refusal :=
  issue (.fmin e) e noStep3 (fun x => x.putFlags 4 1 (x.each2 (fminmax x.fmt false false))) s

/-- FMAX (R226). -/
def execFmax (e : Enc) (s : State) : Host.Outcome State Fault Refusal :=
  issue (.fmax e) e noStep3 (fun x => x.putFlags 4 1 (x.each2 (fminmax x.fmt true false))) s

/-- FMINX (R226). -/
def execFminx (e : Enc) (s : State) : Host.Outcome State Fault Refusal :=
  issue (.fminx e) e noStep3 (fun x => x.putFlags 4 1 (x.each2 (fminmax x.fmt false true))) s

/-- FMAXX (R226). -/
def execFmaxx (e : Enc) (s : State) : Host.Outcome State Fault Refusal :=
  issue (.fmaxx e) e noStep3 (fun x => x.putFlags 4 1 (x.each2 (fminmax x.fmt true true))) s

/-- FCMP (R227): `.s`, EXT[0], makes any NaN raise NV. -/
def execFcmp (e : Enc) (s : State) : Host.Outcome State Fault Refusal :=
  issue (.fcmp e) e noStep3 (fun x =>
    x.putFlags 4 1 fun L =>
      let a := x.fmt.value (x.src 2 x.fty L)
      let b := x.fmt.value (x.src 3 x.fty L)
      (b2n (fcmpVal e.var a b), snanFlag [a, b] ||| flagIf (e.ext3 = 1 && (a.isNan || b.isNan)) NV)) s

/-- FCLAMP (R228). -/
def execFclamp (e : Enc) (s : State) : Host.Outcome State Fault Refusal :=
  issue (.fclamp e) e noStep3 (fun x => x.putFlags 4 1 (x.each3 (fclampElem x.fmt))) s

/-- FRND (R228). -/
def execFrnd (e : Enc) (s : State) : Host.Outcome State Fault Refusal :=
  issue (.frnd e) e noStep3 (fun x => x.putFlags 4 1 (x.each1 (frndElem x.fmt x.mode))) s

/-- FSCALE (R228). -/
def execFscale (e : Enc) (s : State) : Host.Outcome State Fault Refusal :=
  issue (.fscale e) e noStep3 (fun x =>
    x.putFlags 4 1 fun L =>
      let n := signed 32 (x.src 3 .i32 L)
      x.each1 (fun a => fscaleElem x.fmt x.mode a n) L) s

/-- FCLASS (R229). -/
def execFclass (e : Enc) (s : State) : Host.Outcome State Fault Refusal :=
  issue (.fclass e) e noStep3 (fun x => x.putFlags 4 1 (x.each1 fun a => (fclassElem x.fmt a, 0))) s

/-- FDOT2 (R230). -/
def execFdot2 (e : Enc) (s : State) : Host.Outcome State Fault Refusal :=
  issue (.fdot2 e) e noStep3 (fun x =>
    x.putFlags 6 1 fun L =>
      let a := x.src 2 .h16x2 L
      let b := x.src 3 .h16x2 L
      let pair := fun k => (x.fmt.value (Ty.h16x2.elem a k), x.fmt.value (Ty.h16x2.elem b k))
      fdotVals x.mode [pair 0, pair 1] (Fmt.f32.value (x.src 4 .f32 L))) s

/-- FDOT4 (R230). -/
def execFdot4 (e : Enc) (s : State) : Host.Outcome State Fault Refusal :=
  issue (.fdot4 e) e noStep3 (fun x =>
    x.putFlags 6 1 fun L =>
      let a := x.src 2 .b8x4 L
      let b := x.src 3 .b8x4 L
      let fa := if e.var / 2 = 0 then Fmt.e4m3 else Fmt.e5m2
      let fb := if e.var % 2 = 0 then Fmt.e4m3 else Fmt.e5m2
      fdotVals x.mode ((List.range 4).map fun k => (fa.value (Ty.b8x4.elem a k), fb.value (Ty.b8x4.elem b k)))
        (Fmt.f32.value (x.src 4 .f32 L))) s

/-- FDIV (R225). -/
def execFdiv (e : Enc) (s : State) : Host.Outcome State Fault Refusal :=
  issue (.fdiv e) e noStep3 (fun x => x.putFlagsVar 1 (x.each2 (fdivElem x.fmt x.mode))) s

end Sys2Proof.Machine
end

