-- ==== Sys2Proof/Machine/Spad.lean ====
section
/-! DEFINITION. The scratchpad of a team and its circular buffers (R134, R135), and noise draws (R240, R241, R243). -/

namespace Sys2Proof.Machine

/-! ## Bytes -/

/-- Reads n scratchpad bytes, the lowest first. -/
def spadRead (m : SMap Byte) (off : Nat) : Nat → Nat
  | 0 => 0
  | n + 1 => (SMap.get 0 m off).toNat + 256 * spadRead m (off + 1) n

/-- Writes the n low bytes of a number into the scratchpad. -/
def spadWrite (m : SMap Byte) (off : Nat) : Nat → Nat → SMap Byte
  | 0, _ => m
  | n + 1, v => SMap.set 0 (spadWrite m (off + 1) n (v / 256)) off (BitVec.ofNat 8 v)

/-- Whether bytes of a scratchpad touch an uncorrectable word (R464). -/
def Team.badWords (t : Team) (off n : Nat) : Bool :=
  t.bad.any fun u => u.1 == 6 && decide (off < 4 * u.2 + 4) && decide (4 * u.2 < off + n)

/-- Whether they cover one in part. -/
def Team.partWords (t : Team) (off n : Nat) : Bool :=
  t.badWords off n && t.bad.any fun u => u.1 == 6 && (decide (4 * u.2 < off) && decide (off < 4 * u.2 + 4) ||
    decide (4 * u.2 < off + n) && decide (off + n < 4 * u.2 + 4))

/-- The words that a store covers whole are good again. -/
def Team.mendWords (t : Team) (off n : Nat) : Team :=
  if t.bad = [] then t
  else { t with bad := t.bad.filter fun u => !(u.1 == 6 && decide (off ≤ 4 * u.2) && decide (4 * u.2 + 4 ≤ off + n)) }

/-- A store of n bytes into a team's scratchpad performs (R147, R450). -/
def State.spadStore (s : State) (team off n v : Nat) : State :=
  (s.modTeam team fun t => { t.mendWords off n with spad := spadWrite t.spad off n v }).progressTeam team

/-! ## Circular buffers (R135) -/

/-- An unconfigured buffer. -/
def CBuf.blank : CBuf := ⟨0, 0, 0, 0, 0, 0, 0, 0, []⟩

/-- A buffer of a team. -/
def Team.cbuf (t : Team) (b : Nat) : CBuf := SMap.get CBuf.blank t.cbufs b

/-- The next slot number. -/
def CBuf.after (c : CBuf) (i : Nat) : Nat := (i + 1) % c.ns

/-- The scratchpad offset of a slot. -/
def CBuf.offset (c : CBuf) (i : Nat) : Nat := c.base + 16 * c.sz * i

/-- A producer claims slot WP. -/
def CBuf.claim (c : CBuf) : CBuf :=
  { c with free := c.free - 1, wp := c.after c.wp, claims := c.claims ++ [(c.wp, false)] }

/-- Drops the filled claims at the front, which become FILLED. -/
def CBuf.settle (c : CBuf) : CBuf :=
  let done := c.claims.takeWhile fun p => p.2
  { c with claims := c.claims.drop done.length, filled := c.filled + done.length }

/-- Marks a claimed slot filled; slots become filled in claim order. -/
def CBuf.fill (c : CBuf) (i : Nat) : CBuf :=
  { c with claims := replaceBy (fun p : Nat × Bool => p.1 == i) (fun p => (p.1, true)) c.claims }.settle

/-- The oldest claimed slot that is not filled. -/
def CBuf.oldest (c : CBuf) : Option Nat := (c.claims.find? fun p => !p.2).map Prod.fst

/-- A consumer takes slot RP. -/
def CBuf.take (c : CBuf) : CBuf := { c with filled := c.filled - 1, rp := c.after c.rp }

/-- Slot GP is given back. -/
def CBuf.give (c : CBuf) : CBuf := { c with free := c.free + 1, gp := c.after c.gp }

/-- Wakes the fibres that wait for a slot of a buffer (R255). -/
def State.wakeCb (s : State) (team b : Nat) : State :=
  (s.fibres.filter fun f => f.team == team).foldl (fun s f => if f.waits = .cb b then s.wake f.id else s) s

/-- Changes a buffer of a team. -/
def State.setCb (s : State) (team b : Nat) (g : CBuf → CBuf) : State :=
  s.modTeam team fun t => { t with cbufs := SMap.set CBuf.blank t.cbufs b (g (t.cbuf b)) }

/-! ## Noise draws (R99, R240 to R243) -/

/-- The slot width of a format code (R233). -/
def slotWidth (code : Nat) : Nat := 32 / slotCount code

/-- A register with slot j replaced; the unused bits of the slot are zero (R235). -/
def putSlot (code j old r : Nat) : Nat :=
  let w := slotWidth code
  let lo := w * j
  old % 2 ^ lo + (r % 2 ^ w) * 2 ^ lo + old / 2 ^ (lo + w) * 2 ^ (lo + w)

/-- The exact FP32 value of 24 bits over 2^24 (R242). -/
def unitFloat (u : Nat) : Nat := (Fmt.f32.round 0 false (.fin false u (-24))).1

/-- What a lane of a draw gives D, and its flags: w is its word, src the element that `cvt.sr` rounds and old what D held. -/
def NoiseUse.out : NoiseUse → (w src old : Nat) → Nat × Nat
  | .raw, w, _, _ => (w, 0)
  | .unit, w, _, _ => (unitFloat (w / 256), 0)
  | .sr code j, w, src, old =>
    let r := (Fmt.ofCode code).roundSr (w % 2 ^ 24) (Fmt.f32.value src)
    (putSlot code j old r.1, r.2)

/-- The words of one draw, by lane, and the state after it. -/
structure Drawn where
  words : Nat → Nat
  after : State

/-- A draw from the noise source of a core (log 6). -/
def State.liveDraw (s : State) (core : Nat) : Drawn :=
  ⟨fun L => (Config.noise core s.drawn L).toNat, { s with drawn := s.drawn + 1 }⟩

/-- A draw of a team in a mode of `%rngmode`; none while it waits for a slot of buffer 15, whose other waiters look again (R240, R241). -/
def State.drawNow (s : State) (t : Team) (mode : Nat) : Option Drawn :=
  let c := t.cbuf 15
  if mode = 0 then some (s.liveDraw t.core)
  else if mode = 1 then
    if c.free = 0 then none
    else
      let d := s.liveDraw t.core
      let log := packElems 32 ((List.range 32).map d.words)
      some { d with after := ((d.after.spadStore t.id (c.offset c.wp) 128 log).setCb t.id 15 fun c => c.claim.fill c.wp).wakeCb t.id 15 }
  else if c.filled = 0 then none
  else
    let n := spadRead t.spad (c.offset c.rp) 128
    some ⟨fun L => n / 2 ^ (32 * L) % 2 ^ 32, (s.setCb t.id 15 fun c => c.take.give).wakeCb t.id 15⟩

/-- The head of a core's waiting draws is served: its result is known. -/
def State.serveDraw (s : State) (d : NoiseDraw) (w : Nat → Nat) : State :=
  let out := fun L => d.use.out (w L) (SMap.get 0 d.srcs L).toNat (SMap.get 0 d.olds L).toNat
  let lanes := lanesOf d.lanes
  let ws : RegWrite := ⟨.vec, d.reg, d.lanes, lanes.map fun L => (L, BitVec.ofNat 32 (out L).1)⟩
  { s with
    draws := s.draws.filter fun x => x.result != d.result,
    results := replaceBy (fun r => r.id == d.result)
      (fun r => { r with known := true, writes := [ws], flags := BitVec.ofNat 5 (orFlags (lanes.map fun L => (out L).2)) }) s.results }

/-- Draws that wait at a core are served in their order, as far as slots allow (R240, R241). -/
def State.serveDraws (core : Nat) : (fuel : Nat) → State → State
  | 0, s => s
  | n + 1, s =>
    match s.draws.find? fun d => d.core == core with
    | none => s
    | some d => match (s.team? d.team).bind fun t => s.drawNow t d.mode with
      | none => s
      | some x => State.serveDraws core n (x.after.serveDraw d x.words)

/-- The draws of a core are looked at again. -/
def State.lookDraws (s : State) (core : Nat) : State := State.serveDraws core s.draws.length s

/-- Changes a buffer of a team: a draw that waits for a slot of it comes first, then the fibres that wait on it look again. -/
def State.modCb (s : State) (team b : Nat) (g : CBuf → CBuf) : State :=
  let s := s.setCb team b g
  let s := match s.team? team with
    | some t => if b = 15 then s.lookDraws t.core else s
    | none => s
  s.wakeCb team b

end Sys2Proof.Machine
end

