-- ==== Sys2Proof/Machine/Convert.lean ====
section
/-! DEFINITION. Conversions (R233 to R239), noise draws and random numbers (R240 to R243). -/

namespace Sys2Proof.Machine

/-! ## Slots of a register (R233) -/

/-- The bits of an element of a format code: FP6 and FP4 lie low in their slot. -/
def codeBits (code : Nat) : Nat := if code ≤ 7 then (Fmt.ofCode code).bits else slotWidth code

/-- Whether an integer format code is signed. -/
def codeSigned (code : Nat) : Bool := code = 9 || code = 11 || code = 13

/-- How an immediate source of a format code is read (R173). DESIGN CHOICE (log 83): a BF16 or FP16 immediate fills slot 0 alone,
and slot 1 reads 0. -/
def immTy (code : Nat) : Ty := if code = 0 then .f32 else if code ≤ 2 then .h16 else .u32

/-- NEG and ABS on an element of a format code (R172). -/
def codeMods (code : Nat) (neg abs : Bool) (b : Nat) : Nat :=
  let ty : Ty := ⟨codeBits code, codeBits code, decide (code ≤ 7), decide (code ≤ 7) || codeSigned code⟩
  let b := if abs then absElem ty b else b
  if neg then negElem ty b else b

/-- The 32 bits of a source in a lane, without NEG and ABS. -/
def Iss.raw (x : Iss) (k code L : Nat) : Nat :=
  let o := x.e.field k
  match o.cls with
  | .imm => immValue (immTy code) o.imm
  | .uni => (x.v.reg .uni o.num.toNat 0).toNat
  | .vec => (x.v.reg .vec o.num.toNat (x.v.patLane o L)).toNat
  | _ => 0

/-- The element of a format code in slot i of a source. -/
def Iss.slotElem (x : Iss) (k code i L : Nat) : Nat :=
  let o := x.e.field k
  let b := x.raw k code L / 2 ^ (slotWidth code * i) % 2 ^ codeBits code
  if o.cls = .imm then b else codeMods code o.neg o.abs b

/-- The source and destination slots that B names (R234). -/
def Iss.slotPair (x : Iss) : Nat × Nat :=
  if x.e.b.cls = .imm then (x.e.b.imm % 4, x.e.b.imm / 4 % 4) else (0, 0)

/-- What D holds before, where slot j of it is replaced; zero without B (R235). -/
def Iss.oldD (x : Iss) (L : Nat) : Nat :=
  if x.e.b.cls = .imm then (x.v.reg x.e.d.cls x.e.d.num.toNat L).toNat else 0

/-! ## Conversion of one element (R235, R236, R101) -/

/-- The value of an element of a format code. -/
def codeValue (code b : Nat) : Val :=
  if code ≤ 7 then (Fmt.ofCode code).value b
  else if code = 8 then e8m0Value b
  else Val.ofInteger (if codeSigned code then signed (codeBits code) b else b)

/-- Conversion of an element: its bits in the destination and the flags. -/
def cvtElem (src dst mode : Nat) (sat : Bool) (b : Nat) : Nat × Nat :=
  let v := codeValue src b
  if dst ≤ 7 then
    let p := (Fmt.ofCode dst).round mode sat v
    (p.1, p.2 ||| snanFlag [v])
  else if dst = 8 then toE8m0 mode v
  else
    let p := v.toInt mode (codeSigned dst) (codeBits dst)
    (wrap (codeBits dst) p.1, p.2 ||| snanFlag [v])

/-- CVT (R234 to R236). -/
def execCvt (e : Enc) (s : State) : Host.Outcome State Fault Refusal :=
  issue (.cvt e) e noStep3 (fun x =>
    let ij := x.slotPair
    let g := fun L => cvtElem e.cvtSrc e.lo4 x.mode x.saturates (x.slotElem 2 e.cvtSrc ij.1 L)
    x.fixed 4 (x.writesTo e.d 1 x.act fun L => putSlot e.lo4 ij.2 (x.oldD L) (g L).1)
      (orFlags (x.datapath.map fun L => (g L).2))) s

/-! ## Blocks (R104, R238, R239) -/

/-- MXQ (R238). -/
def execMxq (e : Enc) (s : State) : Host.Outcome State Fault Refusal :=
  issue (.mxq e) e noStep3 (fun x =>
    let xs := (List.range 32).map fun j =>
      if x.act.getLsbD j then Fmt.f32.value (x.src 2 .f32 j) else .fin false 0 0
    let q := mxQuantise (Fmt.ofCode e.lo4) x.mode xs
    x.variable (x.writesTo e.d 1 x.act (fun L => q.elems.getD L 0) ++ x.writesTo e.e 1 x.act fun _ => q.scale)
      (q.flags ||| flagIf q.bad NV)) s

/-- Dequantisation of one element to FP32 (R103, R239). -/
def mxdElem (code scale b : Nat) : Nat × Nat :=
  let f := Fmt.ofCode code
  let p := Fmt.f32.round 0 false (mxValue f scale b)
  (p.1, p.2 ||| flagIf (decide (scale ≠ 255)) (snanFlag [f.value b]))

/-- MXD (R239). -/
def execMxd (e : Enc) (s : State) : Host.Outcome State Fault Refusal :=
  issue (.mxd e) e noStep3 (fun x =>
    let k := if e.c.cls = .imm then e.c.imm % 4 else 0
    x.putFlagsVar 1 fun L => mxdElem e.lo4 (x.src 3 .u32 L % 256) (x.slotElem 2 e.lo4 k L)) s

/-! ## Noise draws (R240, R241, R243) -/

/-- A draw at issue: it is made; or it waits; or it is not permitted (DETAIL 9); or the source is offline. -/
inductive Draw where
  | made (d : Drawn)
  | waits
  | illegal
  | offline

/-- One draw under `%rngmode`, behind those that the core has not served yet (R240, R241). -/
def Iss.draw (x : Iss) : Draw :=
  let v := x.v
  let mode := v.f.rngmode.toNat % 4
  let c := v.t.cbuf 15
  if mode = 3 then .illegal
  else if mode ≠ 0 ∧ (!v.s.pkg.accepted.getLsbD 4 ∨ c.ns = 0 ∨ c.sz < 8) then .illegal
  else if mode ≠ 2 ∧ !(v.s.core v.t.core).noiseOn then .offline
  else if v.s.draws.any fun d => d.core == v.t.core then .waits
  else match v.s.drawNow v.t mode with
    | some d => .made d
    | none => .waits

/-- A draw waits in its core; its result is outstanding (R46, R241). -/
def Iss.queueDraw (x : Iss) (use : NoiseUse) (src old : Nat → Nat) : Act :=
  let v := x.v
  let p := v.s.addResult v.f.id false [] 0
  let at_ := fun (g : Nat → Nat) => (lanesOf x.act).map fun L => (L, BitVec.ofNat 32 (g L))
  .next { p.2 with draws := p.2.draws ++ [{
    result := p.1, fid := v.f.id, team := v.t.id, core := v.t.core, mode := v.f.rngmode.toNat % 4, ip := v.ip, lanes := x.act,
    use := use, reg := v.regNo .vec x.e.d.num.toNat, srcs := at_ src, olds := at_ old }] }

/-- An instruction that draws: its use of the words, the elements that it rounds and the old values of D. -/
def Iss.withDraw (x : Iss) (use : NoiseUse) (src old : Nat → Nat) : Act :=
  match x.draw with
  | .illegal => x.badValue 0 x.act
  | .offline => .trap 15 0 0 x.act 0
  | .waits => x.queueDraw use src old
  | .made d =>
    let out := fun L => use.out (d.words L) (src L) (old L)
    let x := { x with v := { x.v with s := d.after } }
    x.variable (x.writesTo x.e.d 1 x.act fun L => (out L).1) (orFlags ((lanesOf x.act).map fun L => (out L).2))

/-- CVT_SR (R99, R237). -/
def execCvtSr (e : Enc) (s : State) : Host.Outcome State Fault Refusal :=
  issue (.cvtSr e) e noStep3 (fun x => x.withDraw (.sr e.lo4 x.slotPair.2) (x.slotElem 2 0 x.slotPair.1) x.oldD) s

/-- RAND (R242). -/
def execRand (e : Enc) (s : State) : Host.Outcome State Fault Refusal :=
  issue (.rand e) e noStep3 (fun x => x.withDraw (if e.mod = 1 then .unit else .raw) (fun _ => 0) fun _ => 0) s

/-- NOISE_SOURCE_OFFLINE (R243). -/
def execNoiseSourceOffline (core : Nat) (s : State) : Host.Outcome State Fault Refusal :=
  .next (s.modCore core fun c => { c with noiseOn := false })

end Sys2Proof.Machine
end

