-- ==== Sys2Proof/Machine/Fabric.lean ====
section
/-! DEFINITION. The fabric: the stops of a tower's loops and what reaches them (R22, R27), the loops of a pair of stops (R357,
R467), the legs between towers (R359), and the packets that leave the package with their class and flow (R360 to R362). -/

namespace Sys2Proof.Machine

/-! ## Stops (R22) -/

/-- A block of a tower that sends or receives over its loops. The distributor, the Hen, the Bellwether master and the host link share
the link stop with the Zunos ports. -/
inductive Block where
  | port (n : Nat)
  | slice (n : Nat)
  | ox
  | stack (k : Nat)
  | bridge (n : Nat)
  | zunos (port : Nat)
  | hostLink
  | distributor
  | hen
  | bellwether
deriving DecidableEq, Repr

/-- The number of stops of a tower. -/
def stopCount : Nat := 143

/-- The stop that a block reaches the loops through. -/
def Block.stop : Block → Nat
  | .port n => n
  | .slice n => 72 + n
  | .ox => 136
  | .stack k => 137 + k
  | .bridge n => 139 + n
  | .zunos _ | .hostLink | .distributor | .hen | .bellwether => 142

/-- The bridge port of a tower for another: the other towers in ascending order. -/
def bridgeTo (t u : Nat) : Block := .bridge (if u < t then u else u - 1)

/-- The tower that carries a Zunos port (R27). -/
def portTower (port : Nat) : Nat := if port < 5 then 0 else if port < 10 then 1 else if port < 14 then 2 else 3

/-! ## Loops (R357, R467) -/

/-- The stops passed in ascending order from one to another. -/
def stopsUp (a d : Nat) : Nat := (d + stopCount - a) % stopCount

/-- The loop that a packet between two stops travels on. -/
def loopOf (a d : Nat) : Nat := 2 * ((a + d) % 8) + (if stopsUp a d ≤ 71 then 0 else 1)

/-- The hops that it takes there. -/
def loopHops (a d : Nat) : Nat := if stopsUp a d ≤ 71 then stopsUp a d else stopCount - stopsUp a d

/-- The loop that the pairs of a loop use: the first of it, the one two further on, and so on, that has not failed. -/
def Tower.loopFor (y : Tower) (loop : Nat) : Nat :=
  (((List.range 8).map fun k => (loop + 2 * k) % 16).find? fun n => !y.loopsFailed.getLsbD n).getD loop

/-- The legs of a packet from a block of a tower to a block of a tower, each a tower and a loop by R357: one, or one on each side of a
bridge (R359). -/
def loopLegs (t : Nat) (a : Block) (u : Nat) (b : Block) : List (Nat × Nat) :=
  if t = u then [(t, loopOf a.stop b.stop)]
  else [(t, loopOf a.stop (bridgeTo t u).stop), (u, loopOf (bridgeTo u t).stop b.stop)]

/-! ## Classes and flows (R360, R361, R362) -/

/-- What a packet carries: its TYPE. -/
inductive Wire where
  | read | write | rmw | response | ack | message | collective | signal
deriving DecidableEq, Repr

/-- TYPE. -/
def Wire.type : Wire → Nat
  | .read => 0
  | .write => 1
  | .rmw => 2
  | .response => 3
  | .ack => 4
  | .message => 5
  | .collective => 6
  | .signal => 7

/-- The flow key of an access by its address. -/
def flowOf (pa : Nat) : Nat := bits pa 12 7 ^^^ bits pa 18 13

/-- The class and the flow of a packet: 0 ordered, 1 adaptive. `bulk` marks the data writes of `put`, `putsig` and `app` rows; `pa` is the
address, and for a message the core id. -/
def Wire.lane (k : Wire) (bulk : Bool) (pa : Nat) : Nat × Nat :=
  match k with
  | .response | .ack | .collective => (1, 0)
  | .message => (0, pa % 64)
  | .read | .rmw | .signal => (0, flowOf pa)
  | .write => if bulk then (1, 0) else (0, flowOf pa)

/-- The count of failed resends on a link: kind (0 loop, 1 bridge, 2 port) and number. -/
def linkKey (kind n : Nat) : Nat := kind * 2 ^ 16 + n

/-- The failed resends of the flit that a link carries. -/
def State.retries (s : State) (kind n : Nat) : Nat := SMap.get 0 s.pkg.linkRetries (linkKey kind n)

/-- Whether a port is being retrained (R469) or recalibrated (R408). -/
def State.recalibrates (s : State) (port : Nat) : Bool :=
  decide (8 ≤ s.retries 2 port) || match (s.tower (portTower port)).change with
  | some (3, p, _) | some (5, p, _) => p == port
  | _ => false

/-- Whether a port carries ordered traffic: its link is up, or will be when it has been trained. -/
def State.portServes (s : State) (port : Nat) : Bool := (s.pkg.ports.getD port 0).getLsbD 0 || s.recalibrates port

/-- The port that the routing table gives for a package and a flow: that of a dead port goes to another (R362, R470). -/
def State.routePort (s : State) (dpkg flow : Nat) : Nat :=
  let r := Config.route s.pkg.routes dpkg flow % 18
  (((List.range 18).map fun k => (r + k) % 18).find? s.portServes).getD r

/-- Whether ordered traffic of a flow waits: its port is being recalibrated, or the routing table reloaded (R362, R408). -/
def State.portHeld (s : State) (dpkg flow : Nat) : Bool :=
  s.recalibrates (s.routePort dpkg flow) || (s.towers.any fun y => match y.change with
    | some (4, _) => true
    | _ => false)

/-- The port that a packet leaves on: an ordered one by the routing table as it stands, an adaptive one any (R362). -/
def State.portFor (s : State) (cls dpkg flow : Nat) : Nat :=
  if cls = 0 then s.routePort dpkg flow else s.pick (2 ^ 200 + s.wire.length) % 18

/-- A packet leaves the package (R360), on a port that is given where its path is. `spec` is bits 511:128 of its header and `place` holds
ADDR, VIEW and VHT. -/
def State.emit (s : State) (k : Wire) (bulk : Bool) (dpkg tag : Nat) (place : Nat × Nat × Nat) (key spec : Nat) (payload : List Byte)
    (port : Option Nat := none) : State :=
  let (cls, flow) := k.lane bulk key
  let header := k.type + cls * 2 ^ 4 + s.pkg.pkgNo * 2 ^ 5 + dpkg % 2 ^ 7 * 2 ^ 12 + flow * 2 ^ 19 + (payload.length + 63) / 64 * 2 ^ 25 +
    tag % 2 ^ 32 * 2 ^ 32 + place.1 % 2 ^ 46 * 2 ^ 64 + place.2.1 * 2 ^ 110 + place.2.2 * 2 ^ 112 + spec * 2 ^ 128
  { s with wire := s.wire ++ [{ port := port.getD (s.portFor cls dpkg flow), header := BitVec.ofNat 512 header, payload := payload }] }

/-- What a type gives bits 511:128 and its payload where the manual does not: free (log 20). -/
def State.freeSpec (s : State) : Nat := s.pick (2 ^ 201 + s.wire.length) % 2 ^ 384

/-- The payload of a type whose layout the manual does not give: any number of flits up to 24, of any bytes (log 20). -/
def State.freePayload (s : State) : List Byte :=
  (List.range (64 * (s.pick (2 ^ 202 + s.wire.length) % 25))).map fun i => BitVec.ofNat 8 (s.pick (2 ^ 203 + 2 ^ 16 * s.wire.length + i))

/-- ADDR, VIEW and VHT of an access. -/
def Place.wire (p : Place) : Nat × Nat × Nat := (p.pa, p.view, if p.view = 2 then p.tower else 0)

/-- An access leaves for a remote home; one at home in this package stays (R120, R361). -/
def State.emitAccess (s : State) (k : Wire) (bulk : Bool) (tag : Nat) (p : Place) : State :=
  if p.pkg = s.pkg.pkgNo then s
  else s.emit k bulk p.pkg tag p.wire p.pa s.freeSpec (if k = .read then [] else s.freePayload)

/-- The address of a packet that the manual does not give: free. -/
def State.freeWire (s : State) : Nat × Nat × Nat :=
  (s.pick (2 ^ 205 + 3 * s.wire.length), s.pick (2 ^ 205 + 3 * s.wire.length + 1) % 3, s.pick (2 ^ 205 + 3 * s.wire.length + 2) % 4)

end Sys2Proof.Machine
end

