-- ==== Sys2Proof/Machine/Access.lean ====
section
/-! DEFINITION. Buffer records (R84, R85), address generation (R121 to R123, R247), coalescing and translation of an
instruction's lines (R124, R429, R431, R436), and the memory operations that leave the core (R130, R142). -/

namespace Sys2Proof.Machine

/-! ## Buffer records (R84, R85) -/

/-- The fields of a buffer record. -/
structure Buf where
  base : Nat
  stride : Nat
  extent : Nat
  swz : Nat
  oob : Nat
  prd : Bool
  pwr : Bool
  pat : Bool
  plo : Nat
  ht : Nat
  rsv : Bool
deriving DecidableEq, Repr

/-- A record from its 256 bits. -/
def Buf.of (n : Nat) : Buf :=
  { base := bits n 56 0, stride := bits n 95 64, extent := bits n 143 96, swz := bits n 147 144, oob := bits n 149 148,
    prd := bitN n 150, pwr := bitN n 151, pat := bitN n 152, plo := bits n 155 153, ht := bits n 157 156,
    rsv := decide (bits n 63 57 ≠ 0) || decide (bits n 255 158 ≠ 0) }

/-- What is wrong with a record: DETAIL of `badbuf`, the lowest that applies. -/
def Buf.bad (b : Buf) (flat : Bool) : Option Nat :=
  if b.rsv then some 1 else if 4 ≤ b.swz then some 2 else if 2 ≤ b.oob then some 3 else if 5 ≤ b.plo then some 4
  else if flat && decide (b.swz ≠ 0) then some 5 else none

/-- Whether a record permits an access; DETAIL of `bufperm` otherwise. -/
def Buf.denied (b : Buf) : Perm → Option Nat
  | .read | .fetch => if b.prd then none else some 1
  | .write => if b.pwr then none else some 2
  | .atomic => if b.pat then none else some 3
  | .any => none

/-- The 256 bits of the record of a field. -/
def Iss.recBits (x : Iss) (k : Nat) : Nat := x.v.regs .uni (x.e.field k).num.toNat 0 8

/-- The record of a field. -/
def Iss.buf (x : Iss) (k : Nat) : Buf := Buf.of (x.recBits k)

/-- Step 5 of R410 on one record: `badbuf`, then `bufperm`. -/
def Iss.bufTrap (x : Iss) (k : Nat) (b : Buf) (perms : List Perm) (flat : Bool := false) : Option Act :=
  match b.bad flat with
  | some d => some (.trap 3 k d x.act 0)
  | none => match perms.findSome? b.denied with
    | some d => some (.trap 4 k d x.act 0)
    | none => none

/-! ## Addresses (R121, R122, R247) -/

/-- Swizzle. -/
def swizzle (o m : Nat) : Nat :=
  if m = 0 then o
  else
    let c := 2 ^ (3 + m)
    let n := 128 / c
    let w := o / 128
    let j := o % 128 / c
    128 * w + c * (j ^^^ (w % n)) + o % c

/-- An element that a lane accesses: its offset in bytes, whether it is in bounds, its first byte, the first bit in that
byte, and its bits. -/
structure Elem where
  lane : Nat
  off : Int
  inb : Bool
  va : Nat
  bit : Nat
  nbits : Nat
deriving DecidableEq, Repr

/-- An element of z bytes at an offset. -/
def Buf.elem (b : Buf) (lane z : Nat) (o : Int) : Elem :=
  { lane := lane, off := o, inb := decide (0 ≤ o) && decide (o + z ≤ b.extent), va := b.base + swizzle o.toNat b.swz,
    bit := 0, nbits := 8 * z }

/-- A sub-byte element of w bits. -/
def Buf.subElem (b : Buf) (lane w idx : Nat) (off : Int) : Elem :=
  let beta := 8 * off + (w * idx : Nat)
  { lane := lane, off := beta / 8, inb := decide (0 ≤ beta) && decide (beta + w ≤ 8 * b.extent),
    va := b.base + beta.toNat / 8, bit := beta.toNat % 8, nbits := w }

/-- The access size of a size code in bytes; 0 for a sub-byte element (R247). -/
def sizeBytes (code : Nat) : Nat :=
  match code with
  | 0 | 1 => 1
  | 2 | 3 => 2
  | 4 => 4
  | 5 => 8
  | 6 => 16
  | _ => 0

/-- The element of a size code for an index and an offset. -/
def Buf.at (b : Buf) (lane code idx : Nat) (off : Int) : Elem :=
  if sizeBytes code = 0 then b.subElem lane (if code = 7 then 4 else 6) idx off
  else b.elem lane (sizeBytes code) ((idx * b.stride : Nat) + off)

/-- The lanes of the elements that pass a test. -/
def elemMask (es : List Elem) (p : Elem → Bool) : Mask := maskOf ((es.filter p).map Elem.lane)

/-- OFFSET of a trap: bits 31:0 of the offset of the lowest lane that passes a test (R409). -/
def elemOffset (es : List Elem) (p : Elem → Bool) : Nat := ((es.find? p).map fun e => wrap 32 e.off).getD 0

/-- The last byte of a sub-byte element, the first of any other. -/
def Elem.reach (e : Elem) : Nat := if e.nbits % 8 = 0 then e.va else e.va + (e.bit + e.nbits - 1) / 8

/-- Step 6 of R410 on global elements: `bounds` with its DETAIL, `addrrange`, `misalign` by z. -/
def Iss.elemTrap (_x : Iss) (b : Buf) (es : List Elem) (z detail : Nat) : Option Act :=
  let out := fun e : Elem => b.oob = 1 && !e.inb
  let far := fun e : Elem => e.inb && decide (2 ^ 57 ≤ e.reach)
  let odd := fun e : Elem => e.inb && decide (2 ≤ z) && decide (e.va % z ≠ 0)
  if elemMask es out ≠ 0 then some (.trap 7 0 detail (elemMask es out) (elemOffset es out))
  else if elemMask es far ≠ 0 then some (.trap 6 0 0 (elemMask es far) 0)
  else if elemMask es odd ≠ 0 then some (.trap 5 0 z (elemMask es odd) 0)
  else none

/-! ## Lines (R124) -/

/-- A virtual line with the pieces that the lanes ask of it; a piece's key counts bytes within the line. -/
structure VLine where
  va : Nat
  segs : List Seg
deriving DecidableEq, Repr

/-- The pieces of an element, by line: at most two. -/
def Elem.pieces (e : Elem) (data data2 : BitVec 128) : List (Nat × Seg) :=
  let B := 8 * e.va + e.bit
  let room := 1024 - B % 1024
  let piece := fun (b n elt : Nat) =>
    (b / 1024 * 128, { lane := e.lane, key := b % 1024 / 8, bit := b % 8, nbits := n, eltBit := elt, data := data,
                       data2 := data2 : Seg })
  if e.nbits ≤ room then [piece B e.nbits 0] else [piece B room 0, piece (B + room) (e.nbits - room) room]

/-- Adds a piece to the lines, keeping them by rising address and their pieces in lane order. -/
def addPiece (p : Nat × Seg) : List VLine → List VLine
  | [] => [⟨p.1, [p.2]⟩]
  | l :: ls =>
    if p.1 < l.va then ⟨p.1, [p.2]⟩ :: l :: ls
    else if p.1 = l.va then { l with segs := l.segs ++ [p.2] } :: ls
    else l :: addPiece p ls

/-- The distinct lines of a list of pieces. -/
def gatherLines (ps : List (Nat × Seg)) : List VLine := ps.foldl (fun ls p => addPiece p ls) []

/-- Translates each line once. -/
def State.translateLines (s : State) (core ctx : Nat) (perm : Perm) : List VLine → List (VLine × Trans) × State
  | [] => ([], s)
  | l :: ls =>
    let (t, s) := s.translate core ctx l.va perm
    let (ts, s) := s.translateLines core ctx perm ls
    ((l, t) :: ts, s)

/-- The lanes of a line. -/
def VLine.lanes (l : VLine) : List Nat := l.segs.map Seg.lane

/-- The failures of the lines, in lane order. -/
def lineFailures (ts : List (VLine × Trans)) : List (Nat × Nat × Nat) :=
  (List.range 32).flatMap fun L => ts.filterMap fun p => match p.2 with
    | .bad _ c d => if p.1.lanes.contains L then some (L, c, d) else none
    | _ => none

/-- The missing pages of the lines. -/
def lineMisses (ts : List (VLine × Trans)) (acc : BitVec 4) (b : Buf) : List Miss :=
  ts.filterMap fun p => match p.2 with
    | .unmapped level =>
      some { va := granuleOf p.1.va, acc := acc, level := level, plo := BitVec.ofNat 3 b.plo, ht := BitVec.ofNat 2 b.ht }
    | _ => none

/-- The lines that translated, with their places. -/
def lineHits (ts : List (VLine × Trans)) : List (Place × List Seg) :=
  ts.filterMap fun p => match p.2 with
    | .ok pl => some (pl, p.1.segs)
    | _ => none

/-- The lines whose page is missing. -/
def lineLost (ts : List (VLine × Trans)) : List VLine :=
  ts.filterMap fun p => match p.2 with
    | .unmapped _ => some p.1
    | _ => none

/-! ## Operations under way (R142, R148 to R150, R164, R438) -/

/-- Whether an order acquires. -/
def Order.acquires : Order → Bool
  | .acquire | .acqRel => true
  | _ => false

/-- Whether an order releases. -/
def Order.releases : Order → Bool
  | .release | .acqRel => true
  | _ => false

/-- The operations of a fibre that have not performed. -/
def State.pendingOps (s : State) (fid : Nat) : List MemOp := s.ops.filter fun o => o.fid == fid && !o.performed

/-- The fibre's own side-log entries (R438). -/
def State.ownLog (s : State) (fid : Nat) : List LogEntry := s.sideLog.filter fun e => e.fid == fid && decide (e.owner = none)

/-- Whether an operation of a name is still to perform: a memory operation or one of an engine queue. -/
def State.opLives (s : State) (id : Nat) : Bool :=
  (s.ops.any fun o => o.id == id && !o.performed) || (s.teams.any fun t => t.queues.any fun q => q.id == id)

/-- Whether a side-log entry is among the operations of a list, by its own name or its owner's. -/
def State.logLives (s : State) (ids : List Nat) : Bool :=
  s.sideLog.any fun e => ids.contains e.id || (match e.owner with
    | some o => ids.contains o
    | none => false)

/-- Why an access of a fibre does not issue yet. -/
inductive Hold where
  | free | wait | log
deriving DecidableEq, Repr

/-- An access waits while an acquire of the fibre has not performed (R149; the results of a firmware call are one, R328), and
while a queue fence holds it (R164). -/
def State.accessHold (s : State) (f : Fibre) : Hold :=
  if s.logLives f.qhold then .log
  else if f.qhold.any s.opLives then .wait
  else if (s.pendingOps f.id).any fun o => o.order.acquires then .wait
  else if s.calls.any fun c => c.fid == f.id then .wait
  else .free

/-- What a release waits for besides (R148, R438): the fibre's side-log entries hold it. -/
def State.releaseHold (s : State) (f : Fibre) : Hold := if s.ownLog f.id ≠ [] then .log else s.accessHold f

/-- Whether a fibre has stack-queue operations under way (R148). -/
def State.stackBusy (s : State) (fid : Nat) : Bool :=
  s.teams.any fun t => t.queues.any fun q => decide (q.kind = .bwst) && q.fid == fid

/-- A release that performs at issue also waits for every earlier access of the fibre, at `tower` scope (2) or wider for its earlier
`bwst` too (R148). -/
def State.arriveHold (s : State) (f : Fibre) (scope : Nat := 3) : Hold :=
  match s.releaseHold f with
  | .free => if s.pendingOps f.id ≠ [] ∨ (2 ≤ scope ∧ s.stackBusy f.id) then .wait else .free
  | h => h

/-- Whether a release fence of a fibre has still to perform: its later strong writes wait (R151). -/
def State.fencePending (s : State) (fid : Nat) : Bool := (s.pendingOps fid).any fun p => p.fence && p.order.releases

/-- What a strong access that performs at issue waits for (R149, R151). -/
def State.strongHold (s : State) (f : Fibre) : Hold :=
  match s.accessHold f with
  | .free => if s.fencePending f.id then .wait else .free
  | h => h

/-- The hold as the end of an issue. -/
def Iss.held (x : Iss) : Hold → Option Act
  | .free => none
  | .wait => some (.hold x.v.s)
  | .log => some (.hold (x.v.s.leave x.v.f.id .held .log))

/-- Wakes the fibres whose wait for side-log entries is over (R435, R438). -/
def State.wakeLog (s : State) : State :=
  s.fibres.foldl (fun s f =>
    if f.run = .held ∧ f.waits = .log ∧ s.ownLog f.id = [] ∧ !s.logLives f.qhold then s.wakeHeldFibre f.id else s) s

/-- Wakes the Held fibres of a core that wait for something. -/
def State.wakeHeldFor (s : State) (core : Nat) (p : Waits → Bool) : State :=
  s.fibres.foldl (fun s f =>
    if f.run = .held ∧ p f.waits ∧ ((s.team? f.team).map fun t => t.core) = some core then s.wakeHeldFibre f.id else s) s

/-- Whether an `app` is held at a row that has found no room in the side log or the fault filter (R436). -/
def EngOp.rowHeld (o : EngOp) : Bool := decide (o.kind = .app) && o.held.isSome && decide (o.got = 1)

/-- The `app` operations of a core that room held up try their row again (R436). -/
def State.freeRows (s : State) (core : Nat) : State :=
  { s with teams := s.teams.map fun t =>
      if t.core = core then
        { t with queues := t.queues.map fun o => if o.rowHeld then { o with held := none, got := 0 } else o }
      else t }

/-- Wakes the fibres that wait for room in the fault filter of a core (R431), and the rows that do (R436). -/
def State.wakeRoom (s : State) (core : Nat) : State := (s.wakeHeldFor core fun w => decide (w = .room)).freeRows core

/-- Wakes those that wait for room in its side log (R436). -/
def State.wakeLogRoom (s : State) (core : Nat) : State :=
  (s.wakeHeldFor core fun w => match w with
    | .logRoom _ _ => true
    | _ => false).freeRows core

/-! ## Sending (R124, R130) -/

/-- Counts a line that a team sent from a tower toward `%locl` or `%locr` (R130). -/
def State.countLineAt (s : State) (tower team : Nat) (p : Place) : State :=
  s.modTeam team fun t =>
    if p.pkg = s.pkg.pkgNo ∧ p.tower = tower then { t with locl := t.locl + 1 } else { t with locr := t.locr + 1 }

/-- Counts a line that a team sends from where it runs. -/
def State.countLine (s : State) (team : Nat) (p : Place) : State :=
  match s.team? team with
  | some t => s.countLineAt (towerOf t.core) team p
  | none => s

/-- A piece with its storage key. -/
def Seg.placed (g : Seg) (line : Nat) : Seg := { g with key := line + g.key }

/-- Puts a piece into a list of pieces in lane order, before those of its lane. -/
def insertSeg (g : Seg) : List Seg → List Seg
  | [] => [g]
  | h :: hs => if g.lane ≤ h.lane then g :: h :: hs else h :: insertSeg g hs

/-- Merges lines that lie in one physical line: their pieces perform in lane order (R142). -/
def mergePlaces : List (Place × List Seg) → List (Place × List Seg)
  | [] => []
  | p :: ps =>
    let rest := mergePlaces ps
    match rest.find? fun q => q.1.key == p.1.key with
    | some q => (p.1, p.2.foldr insertSeg q.2) :: rest.filter fun q => q.1.key != p.1.key
    | none => p :: rest

/-- One request for each line of an operation of a core, each counted. -/
def State.addReqs (s : State) (op team core : Nat) : List (Place × List Seg) → State
  | [] => s
  | (p, segs) :: ps =>
    let r : Req :=
      { id := s.nextId, op := op, line := p.key, pa := p.pa, view := p.view, bank := s.bankFor core p, legs := [], segs := segs.map fun g => g.placed p.key,
        state := .waiting, got := [], sentAt := s.now, noAlloc := false }
    State.addReqs ({ s with nextId := s.nextId + 1, reqs := s.reqs ++ [r] }.countLine team p) op team core ps

/-- What an instruction asks of memory. -/
structure Ask where
  kind : MemKind
  order : Order
  scope : Nat
  signed : Bool
  nbits : Nat
  alloc : Bool
  perm : Perm
  zeros : Mask
  dcls : Cls
  dreg : Nat
  words : Nat
  loads : Bool
deriving DecidableEq, Repr

/-- Whether an instruction runs once on the uniform datapath: every operand is uniform (R73; the program of R484 counts on it). The
lowest lane of ACTIVE then acts for all, in `stfe` too (R254; DESIGN CHOICE, log 77). -/
def Iss.once (x : Iss) : Bool := x.e.allUniform

/-- The pieces that an instruction sends of those of a line: of one lane alone when it runs once. -/
def Iss.alone (x : Iss) (gs : List Seg) : List Seg :=
  match gs with
  | [] => []
  | g :: _ => if x.once then gs.filter fun h => h.lane == g.lane else gs

/-- Whether a strong access sends a promotion tag where it writes (R153). -/
def Ask.tags (a : Ask) (coreFence : Bool) : Bool :=
  decide (a.order ≠ .weak) && ((a.order.releases && decide (a.scope = 0)) || coreFence)

/-- The operation of an instruction, with its requests; a load's result is outstanding until LOAD_RESPONSE. -/
def Iss.sendOp (x : Iss) (s : State) (a : Ask) (ps : List (Place × List Seg)) : State :=
  let v := x.v
  let (res, s) := if a.loads then
      let (r, s) := s.addResult v.f.id false [] 0
      (some r, s)
    else (none, s)
  let (id, s) := s.fresh
  let op : MemOp :=
    { id := id, fid := v.f.id, team := v.t.id, core := v.t.core, kind := a.kind, order := a.order, scope := a.scope,
      fence := false, signed := a.signed, nbits := a.nbits, alloc := a.alloc, hint := x.e.ch.toNat, ip := v.ip, lanes := x.act,
      zeros := a.zeros, dcls := a.dcls, dreg := a.dreg, words := a.words, result := res,
      tag := a.tags v.f.coreFence, performed := false }
  ({ s with ops := s.ops ++ [op] }).addReqs id v.t.id v.t.core ((mergePlaces ps).map fun (p : Place × List Seg) => (p.1, x.alone p.2))

/-! ## Side log (R436) -/

/-- The side-log entries of a core that are not parked at core 3. -/
def State.logOf (s : State) (core : Nat) : List LogEntry := s.sideLog.filter fun e => e.core == core && !e.parked

/-- Puts an entry into the log: in issue order, and by line address within one instruction. -/
def insertLog (e : LogEntry) : List LogEntry → List LogEntry
  | [] => [e]
  | x :: xs => if e.issue < x.issue ∨ (e.issue = x.issue ∧ e.va < x.va) then e :: x :: xs else x :: insertLog e xs

/-- Whether a granule has entries of a fibre in the side log: its later accesses there meet result 5 until the INVAL that replays them,
and so do not pass them (R143, R438). -/
def State.logged (s : State) (fid ctx va : Nat) : Bool :=
  s.sideLog.any fun e => e.fid == fid && e.ctx == ctx && granuleOf e.va == granuleOf va

/-- The results of a fibre's lines, with result 5 for a logged granule. -/
def State.behindLog (s : State) (fid ctx : Nat) (ts : List (VLine × Trans)) : List (VLine × Trans) :=
  ts.map fun p => if s.logged fid ctx p.1.va then (p.1, .unmapped 0) else p

/-- A side-log entry for each line, or none when the log has no room. -/
def Iss.logLines (x : Iss) (s : State) (a : Ask) (b : Buf) (ls : List VLine) (owner : Option Nat) : Option State :=
  let v := x.v
  if 256 < (s.logOf v.t.core).length + ls.length then none
  else some (ls.foldl (fun s' l =>
    let e : LogEntry :=
      { id := s'.nextId, issue := s.nextId, team := v.t.id, fid := v.f.id, core := v.t.core, tower := towerOf v.t.core, ip := v.ip,
        lanes := maskOf l.lanes, ctx := v.l.ctx, va := l.va, kind := a.kind, order := a.order, scope := a.scope,
        signed := a.signed, nbits := a.nbits, segs := x.alone l.segs, owner := owner, plo := BitVec.ofNat 3 b.plo,
        ht := BitVec.ofNat 2 b.ht, parked := false, tag := a.tags v.f.coreFence, unkeyed := none }
    { s' with nextId := s'.nextId + 1, sideLog := insertLog e s'.sideLog }) s)

/-! ## Step 8 of R410 (R250, R429, R435, R436) -/

/-- Whether an instruction holds its fibre on a missing page: a load, a returning atomic, a watch. -/
def MemKind.holds : MemKind → Bool → Bool
  | .load, _ | .watch _, _ | .sigw _, _ | .collw _, _ => true
  | _, returns => returns

/-- Translates the lines of an instruction and sends it: all, or none of them for a load, or the lines that translated with
the others in the side log. A release goes into the side log once everything that it waits for has performed, and a strong write once
every earlier release fence has, so that their replay needs to wait for nothing (R148, R151, R437). Without room in the log the
instruction is held as a load is, its granules in the filter (R436). -/
def Iss.translateAndSend (x : Iss) (a : Ask) (b : Buf) (ps : List (Nat × Seg)) (finish : State → Act) : Act :=
  let v := x.v
  let (ts, s) := v.s.translateLines v.t.core v.l.ctx a.perm (gatherLines ps)
  let ts := v.s.behindLog v.f.id v.l.ctx ts
  match worstWalk (lineFailures ts) with
  | some (m, c, d) => .fails s c d m
  | none =>
    let misses := lineMisses ts a.perm.acc b
    if misses = [] then finish (x.sendOp s a (lineHits ts))
    else if a.kind.holds a.loads then .hold (s.holdOn v.f.id v.t.core v.l.ctx misses)
    else if a.order.releases && (decide (v.s.pendingOps v.f.id ≠ []) || (decide (2 ≤ a.scope) && v.s.stackBusy v.f.id)) then .hold v.s
    else if a.order ≠ .weak ∧ v.s.fencePending v.f.id then .hold v.s
    else
      match s.gather v.t.core v.l.ctx misses with
      | none => .hold (s.leave v.f.id .held .room)
      | some s' => match x.logLines s' a b (lineLost ts) none with
        | none => .hold (s'.leave v.f.id .held (.logRoom v.l.ctx ((mergeMisses misses).map Miss.va)))
        | some s' => finish (x.sendOp s' a (lineHits ts))

end Sys2Proof.Machine
end

