-- ==== Sys2Proof/Machine/Requests.lean ====
section
/-! DEFINITION. Requests under way: dispatch (R131), performance at the L1 or the home slice (R115, R147, R153), the
completion of operations and fences (R148 to R150), responses (R250), results (R46), remote timeouts (R471) and trap
entry (R412). -/

namespace Sys2Proof.Machine

/-! ## The new value of an atomic (R258) -/

/-- new, from old and the data, on n bits. -/
def atomNew (k : MemKind) (sg : Bool) (n old b b1 : Nat) : Nat :=
  let le := if sg then decide (signed n old ≤ signed n b) else decide (old ≤ b)
  match k with
  | .add => (old + b) % 2 ^ n
  | .sub => (old + 2 ^ n - b) % 2 ^ n
  | .minOp => if le then old else b
  | .maxOp => if le then b else old
  | .andOp => old &&& b
  | .orOp => old ||| b
  | .xorOp => old ^^^ b
  | .xchg => b
  | .cas => if old = b then b1 else old
  | .inc => if b ≤ old then 0 else old + 1
  | .dec => if old = 0 ∨ b < old then b else old - 1
  | _ => old

/-- Whether a kind is a read-modify-write. -/
def MemKind.isRmw : MemKind → Bool
  | .load | .store | .watch _ | .sigw _ | .collw _ | .prefetch _ => false
  | _ => true

/-- Whether a kind writes. -/
def MemKind.writes (k : MemKind) : Bool := k.isRmw || decide (k = .store)

/-! ## The end of operations (R148 to R150) -/

/-- Whether every request of an operation has been answered. -/
def State.reqsDone (s : State) (op : Nat) : Bool := s.reqs.all fun r => r.op != op || r.state.isDone

/-- Whether a fibre has stack-queue operations, older than a name, whose beats are not all applied (R148). -/
def State.stackPending (s : State) (fid before : Nat) : Bool :=
  s.teams.any fun t => t.queues.any fun q => decide (q.kind = .bwst) && q.fid == fid && decide (q.id < before)

/-- Whether everything that a release waits for has performed (R148, R438). -/
def State.releaseReady (s : State) (o : MemOp) : Bool :=
  (s.pendingOps o.fid).all (fun p => decide (o.id ≤ p.id)) && (s.ownLog o.fid).all (fun e => decide (o.id ≤ e.id)) &&
    (decide (o.scope < 2) || !s.stackPending o.fid o.id)

/-- Whether every earlier load and RMW of an acquire fence has performed, those in the side log among them (R150, R438). -/
def State.acquireReady (s : State) (o : MemOp) : Bool :=
  ((s.pendingOps o.fid).all fun p => decide (o.id ≤ p.id) || (decide (p.kind = .store) && !p.fence)) &&
    (s.ownLog o.fid).all fun e => decide (o.id ≤ e.id) || decide (e.kind = .store)

/-- The cores whose tags a fibre's strong accesses have met are promoted (R152). -/
def State.promoteHeard (s : State) (fid : Nat) : State :=
  match s.fibre? fid with
  | some f => (f.heard.foldl State.promote s).modFibre fid fun f => { f with heard := [] }
  | none => s

/-- The action of an acquire at die scope or wider: a fence first promotes the cores that the fibre has read from (R151, R152), and the
L1 is written back and invalidated (R118). -/
def State.acquireAction (s : State) (o : MemOp) : State :=
  if o.order.acquires ∧ 1 ≤ o.scope then (if o.fence then s.promoteHeard o.fid else s).invalidateAll o.core else s

/-- The cache action of a release at die scope or wider (R118). -/
def State.releaseAction (s : State) (o : MemOp) : State :=
  if o.order.releases ∧ 1 ≤ o.scope then s.writeBackAll o.core else s

/-- Performs an operation if it can. -/
def State.settleOp (s : State) (o : MemOp) : State :=
  let ready := if o.fence then
      (!o.order.releases || s.releaseReady o) && (!o.order.acquires || s.acquireReady o)
    else s.reqsDone o.id
  if !ready then s
  else
    let s := if o.fence then s.releaseAction o else s
    let s := s.acquireAction o
    if o.result.isSome then
      { s with ops := replaceBy (fun p => p.id == o.id) (fun p => { p with performed := true }) s.ops }
    else { s with ops := s.ops.filter fun p => p.id != o.id, reqs := s.reqs.filter fun r => r.op != o.id }

/-- The scope of an arrival at a barrier, by its number in `Waits.phase` (R156, R320). -/
def barScope : Nat → Nat
  | 9 => 1
  | 10 => 5
  | _ => 0

/-- Whether an arrival of a fibre counts: every earlier access has performed (R148, R156), for `fbar` every register write too (R49). -/
def State.arrivalReady (s : State) (fid which : Nat) : Bool :=
  decide (s.pendingOps fid = []) && decide (s.ownLog fid = []) && !(which == 8 && s.outstanding fid) &&
    !(decide (2 ≤ barScope which) && s.stackBusy fid)

/-- A fibre arrives at a barrier of its team, which may complete the phase (R264). -/
def State.arrive (s : State) (f : Fibre) (t : Team) (which : Nat) (lanes : Mask) : State :=
  let s := if 1 ≤ barScope which then s.writeBackAll t.core else s
  let add := fun b : Barr => ⟨b.phase, b.arrived ++ [f.id]⟩
  let s := s.modTeam t.id fun t => match which with
    | 8 => { t with fbars := SMap.set ⟨0, []⟩ t.fbars f.slot (add (barrAt t.fbars f.slot)) }
    | 9 => { t with cbar := add t.cbar }
    | 10 => { t with commit := add t.commit }
    | b => { t with bars := SMap.set ⟨0, []⟩ t.bars b (add (barrAt t.bars b)) }
  let s := s.modFibre f.id fun f =>
    { f with
      waits := .phase which lanes
      arrived := if which < 8 then SMap.set 0 f.arrived which ((barrAt t.bars which).phase + 1) else f.arrived }
  match which with
  | 8 => s.checkFbar t.id f.slot
  | 9 => s.checkCbar t.id
  | 10 => s
  | b => s.checkBar t.id b

/-- A fibre in the Barrier state arrives once its arrival counts (R49, R156). -/
def State.comes (s : State) (fid : Nat) : State :=
  match s.fibre? fid with
  | none => s
  | some f => match f.waits with
    | .coming which lanes =>
      if s.arrivalReady fid which then
        (match s.team? f.team with
         | some t => s.arrive f t which lanes
         | none => s)
      else s
    | _ => s

/-- Performs the operations of a fibre that can perform, oldest first, and then its arrival at a barrier. -/
def State.settle (s : State) (fid : Nat) : State := ((s.pendingOps fid).foldl State.settleOp s).comes fid

/-- An operation fails with a trap found after issue; a load's destinations stay unwritten and its lanes go back to it,
so that it issues again (R250, R463; log 19). -/
def State.failOp (s : State) (o : MemOp) (cause detail : Nat) (mask : Mask) : State :=
  let s := { s with
    ops := s.ops.filter fun p => p.id != o.id, reqs := s.reqs.filter fun r => r.op != o.id,
    results := s.results.filter fun r => some r.id != o.result }
  let s := if o.result.isSome then
      s.modFibre o.fid fun f => f.moveTo (o.lanes &&& f.live) o.ip
    else s
  let s := s.postTrap o.fid ⟨BitVec.ofNat 8 cause, 0, BitVec.ofNat 16 detail, mask, o.ip, 0⟩
  (s.settle o.fid).wakeIfDone o.fid

/-! ## Dispatch (R131, R143, R148, R150) -/

/-- The operation of a request. -/
def State.ownerOp (s : State) (r : Req) : Option MemOp := s.ops.find? fun o => o.id == r.op

/-- Whether a request holds its slot: from its sending until its response; that of an operation without a result comes as it performs
(R131; log 90). -/
def Req.holdsSlot (r : Req) (o : MemOp) : Bool := decide (r.state = .sent) || (decide (r.state = .done) && o.result.isSome)

/-- The requests of a core that hold slots, with their fibres. -/
def State.sentOf (s : State) (core : Nat) : List (Req × Nat) :=
  s.reqs.filterMap fun r => match s.ownerOp r with
    | some o => if o.core = core ∧ r.holdsSlot o then some (r, o.fid) else none
    | none => none

/-- The shared slots in use: each fibre's requests beyond its 8. -/
def sharedSlots (sent : List (Req × Nat)) : Nat :=
  let fids := (sent.map Prod.snd).eraseDups
  (fids.map fun f => (sent.filter fun p => p.2 == f).length - 8).foldl (· + ·) 0

/-- Whether a request finds a slot and bank room (R131). -/
def State.slotFree (s : State) (r : Req) (o : MemOp) : Bool :=
  let sent := s.sentOf o.core
  let mine := (sent.filter fun p => p.2 == o.fid).length
  let bank := (sent.filter fun p => p.1.bank == r.bank).length
  (decide (mine < 8) || decide (sharedSlots sent < 512)) && decide (bank < 64)

/-- Whether the order of a fibre lets a request leave: one line in fibre order (R143), one bank in issue order (R131), a
release after every earlier access (R148), a strong write after an earlier release fence (R150). -/
def State.orderFree (s : State) (r : Req) (o : MemOp) : Bool :=
  let mine := fun q : Req => match s.ownerOp q with
    | some p => p.fid == o.fid
    | none => false
  let earlier := s.reqs.filter fun q => decide (q.id < r.id) && mine q
  let fenced := (s.pendingOps o.fid).any fun p => p.fence && p.order.releases && decide (p.id < o.id)
  (earlier.all fun q => q.line != r.line || q.state.isDone) &&
    (earlier.all fun q => q.bank != r.bank || decide (q.state ≠ .waiting)) &&
    (!o.order.releases || s.releaseReady o) &&
    !(fenced && o.kind.writes && decide (o.order ≠ .weak))

/-- The package of a storage key. -/
def pkgOfKey (key : Nat) : Nat := key / 2 ^ 39

/-- The tower and the block that a request goes to: its home slice, or the Zunos port of its flow (R22, R362). -/
def State.destOf (s : State) (r : Req) : Nat × Block :=
  if pkgOfKey r.line = s.pkg.pkgNo then (r.bank / 64 % 4, .slice (r.bank % 64))
  else
    let port := s.portFor 0 (pkgOfKey r.line) (flowOf r.pa)
    (portTower port, .zunos port)

/-- The loops that R357 assigns to a request of a core. -/
def State.legsOf (s : State) (r : Req) (core : Nat) : List (Nat × Nat) :=
  let (tower, block) := s.destOf r
  loopLegs (towerOf core) (.port (verticalPort core)) tower block

/-- Whether a loop of a tower that has failed still carries requests: its pairs wait until it is empty (R467). -/
def State.loopDraining (s : State) (tower loop : Nat) : Bool :=
  let y := s.tower tower
  (((List.range 8).map fun k => (loop + 2 * k) % 16).takeWhile fun n => y.loopsFailed.getLsbD n).any fun n =>
    s.reqs.any fun r => decide (r.state = .sent) && r.legs.contains (tower, n)

/-- Whether a request can leave the core. -/
def State.canDispatch (s : State) (r : Req) : Bool :=
  match s.ownerOp r with
  | some o => decide (r.state = .waiting) && s.slotFree r o && s.orderFree r o && ((s.legsOf r o.core).all fun g => !s.loopDraining g.1 g.2) &&
      !(decide (pkgOfKey r.line ≠ s.pkg.pkgNo) && s.portHeld (pkgOfKey r.line) (flowOf r.pa))
  | none => false

/-- A request by its name. -/
def State.req? (s : State) (r : Nat) : Option Req := s.reqs.find? fun q => q.id == r

/-- Changes a request. -/
def State.modReq (s : State) (r : Nat) (g : Req → Req) : State := { s with reqs := replaceBy (fun q => q.id == r) g s.reqs }

/-- Whether a kind reads a line through the port and writes nothing. -/
def MemKind.readsLine (k : MemKind) : Bool := !k.writes

/-- The run of a fibre that a read of a line makes, 8 lines at consecutive ascending addresses before it (R132). -/
def State.runOf (s : State) (fid port pa : Nat) : Nat :=
  match s.streams.find? fun x => x.fid == fid && x.port == port with
  | some x => if pa = x.line + 128 then x.run + 1 else 1
  | none => 1

/-- The stream detector of the core's vertical port sees a request (R132): a read goes on with its fibre's run or starts one, any other
request ends it. -/
def State.detect (s : State) (r : Req) (o : MemOp) : State :=
  let port := towerOf o.core * 72 + verticalPort o.core
  let others := s.streams.filter fun x => x.fid != o.fid || x.port != port
  if o.kind.readsLine then { s with streams := others ++ [⟨o.fid, port, r.pa, s.runOf o.fid port r.pa⟩] } else { s with streams := others }

/-- The place of a request's line. -/
def Req.wirePlace (r : Req) : Nat × Nat × Nat := (r.pa, r.view, if r.view = 2 then r.bank / 64 % 4 else 0)

/-- What a request of a kind is on the wire. -/
def MemKind.wire (k : MemKind) : Wire := if k.isRmw then .rmw else if k.writes then .write else .read

/-- A request for a remote home leaves the package, ordered by its flow (R120, R361). -/
def State.emitReq (s : State) (r : Req) (o : MemOp) : State :=
  if pkgOfKey r.line = s.pkg.pkgNo then s
  else s.emit o.kind.wire false (pkgOfKey r.line) r.id r.wirePlace r.pa s.freeSpec (if o.kind.writes then s.freePayload else [])

/-- A request leaves the core on its loops: past the eighth line of a run a read is marked no-allocate (R131, R132, R357). -/
def State.sendReq (s : State) (r : Req) (o : MemOp) : State :=
  let port := towerOf o.core * 72 + verticalPort o.core
  let far := o.kind.readsLine && decide (8 < s.runOf o.fid port r.pa)
  let legs := (s.legsOf r o.core).map fun g => (g.1, (s.tower g.1).loopFor g.2)
  ((s.modReq r.id fun q => { q with state := .sent, sentAt := s.now, noAlloc := far, legs := legs }).detect r o).emitReq r o

/-- REQUEST_DISPATCH (R131, R132). -/
def execRequestDispatch (r : Nat) (s : State) : Host.Outcome State Fault Refusal :=
  match s.req? r with
  | some q => match s.ownerOp q with
    | some o => if s.canDispatch q then .next (s.sendReq q o) else .next s
    | none => .next s
  | none => .next s

/-! ## Performance (R115, R147) -/

/-- Whether an access may perform in the L1: own package, weak or at core scope, a plain load or store (R147). -/
def State.viaL1 (s : State) (o : MemOp) (line : Nat) : Bool :=
  decide (pkgOfKey line = s.pkg.pkgNo) && !o.kind.isRmw && (decide (o.order = .weak) || decide (o.scope = 0)) &&
    (decide (o.kind = .load) || decide (o.kind = .store))

/-- The L1 allocates a missing line by its own policy (R117, R181; log 11). -/
def State.l1Allocate (s : State) (o : MemOp) (line : Nat) : State :=
  if o.alloc ∧ s.l1Steps o.core ≠ 0 ∧ s.pick (2 ^ 192 + line / 128) % 2 = 1 then s.fillLine o.core line (o.hint == 2) else s

/-- The bytes that a piece spans. -/
def Seg.span (g : Seg) : Nat := (g.bit + g.nbits + 7) / 8

/-- Reads a piece. -/
def State.readSeg (s : State) (core line : Nat) (l1 : Bool) (g : Seg) : Nat × State :=
  match (if l1 then (s.core core).l1Line? line else none) with
  | some x => (x.readN (g.key - line) g.span / 2 ^ g.bit % 2 ^ g.nbits, s)
  | none =>
    let (v, s) := s.homeRead g.key g.span
    (v / 2 ^ g.bit % 2 ^ g.nbits, s)

/-- The data of a piece. -/
def Seg.value (g : Seg) : Nat := g.data.toNat / 2 ^ g.eltBit % 2 ^ g.nbits

/-- Writes bits of a line: into the L1 where the write performs there, with a sub-byte write also sent home (R117); else
at home, a copy in the L1 following it. -/
def State.putBits (s : State) (core line : Nat) (l1 tag : Bool) (key bit nbits v : Nat) : State :=
  let part := decide (bit ≠ 0) || decide (nbits % 8 ≠ 0)
  let held := ((s.core core).l1Line? line).isSome
  let s := if held then
      s.modLine core line fun x => { x.writeBits (key - line) bit nbits v (l1 && !part) with tagged := x.tagged || (l1 && tag) }
    else s
  if l1 && held && !part then s.wakeWhere fun w => w.line == line && w.core == core
  else s.homeWriteBits key bit nbits v

/-- Writes a piece. -/
def State.writeSeg (s : State) (core line : Nat) (l1 : Bool) (tag : Bool) (g : Seg) : State :=
  s.putBits core line l1 tag g.key g.bit g.nbits g.value

/-- One lane's part of a request, with the bits it reads. -/
def State.performSeg (s : State) (o : MemOp) (line bank : Nat) (l1 : Bool) (g : Seg) : Nat × State :=
  match o.kind with
  | .store => (0, s.writeSeg o.core line l1 o.tag g)
  | .xaddF => (0, s.homeXadd g.key bank true false g.value)
  | .xaddI => (0, s.homeXadd g.key bank false false g.value)
  | .xaddISat => (0, s.homeXadd g.key bank false true g.value)
  | .prefetch _ => (0, s)
  | .load | .watch _ | .sigw _ | .collw _ => s.readSeg o.core line l1 g
  | k =>
    let s := s.closeExacts g.key g.span
    let old := Memory.readN s.mem g.key g.span
    let b := g.data.toNat % 2 ^ g.nbits
    (old, s.homeWrite g.key g.span (atomNew k o.signed g.nbits old b (g.data2.toNat % 2 ^ g.nbits)))

/-- The lanes of a request in order, with what they have read. -/
def State.performSegs (s : State) (o : MemOp) (line bank : Nat) (l1 : Bool) : List Seg → List (Nat × Nat) × State
  | [] => ([], s)
  | g :: gs =>
    let (v, s) := s.performSeg o line bank l1 g
    let (vs, s) := s.performSegs o line bank l1 gs
    ((g.lane, v * 2 ^ g.eltBit) :: vs, s)

/-- A strong access that reads a tagged line: the core that the tag names is one that the fibre may have read a release of (R151,
R152). -/
def State.hear (s : State) (o : MemOp) (line : Nat) : State :=
  if o.order = .weak ∨ o.kind = .store then s
  else match s.tags.find? fun t => t.line == line with
    | some t =>
      if t.core = o.core then s else s.modFibre o.fid fun f => { f with heard := if f.heard.contains t.core then f.heard else t.core :: f.heard }
    | none => s

/-- Before an access reaches home: a release writes the L1 back; an access that performs at home writes back the core's copy of its
line, and one that reads there drops it, so that no later read of the fibre goes back (R144, R147); an acquire at die scope or wider
promotes the core that the line's tag names (R118, R153), any other strong read notes it. -/
def State.beforePerform (s : State) (o : MemOp) (line : Nat) : State :=
  let s := s.releaseAction o
  let s := if s.viaL1 o line then s
    else
      let s := s.writeBackAt o.core line
      if o.kind = .store then s else s.dropLine o.core line
  if o.order.acquires ∧ 1 ≤ o.scope then s.serveTag line o.core else s.hear o line

/-- The end of a fibre's watch instruction: satisfied, it moves on; otherwise the line is watched (R137, R265, R311,
R316). -/
def State.afterRead (s : State) (o : MemOp) (line bank v : Nat) : State :=
  let watch : Watch := { line := line, bank := bank, fid := some o.fid, queue := none, core := o.core }
  let waits := ((s.fibre? o.fid).map Fibre.waits).getD .none
  match o.kind, waits with
  | .watch e, .waddr _ lanes => if v % 2 ^ 32 ≠ e.toNat then s.wakePast o.fid lanes else s.addWatch watch
  | .sigw t, .watch =>
    if (v + 2 ^ 32 - t.toNat) % 2 ^ 32 < 2 ^ 31 then s.wakePast o.fid o.lanes else s.addWatch watch
  | .collw false, .watch =>
    if bitN v 0 then
      (s.writeReg o.fid none { cls := .uni, reg := o.dreg, lanes := 1, vals := [(0, BitVec.ofNat 32 v)] }).wakePast o.fid o.lanes
    else s.addWatch watch
  | _, _ => s

/-- Whether a line is in the lost-line table (R465). -/
def State.lostLine (s : State) (line : Nat) : Bool := s.pkg.lostLines.any fun p => p.2 == line

/-- Whether the pieces of a store cover all 128 bytes of their line (R465). -/
def coversLine (line : Nat) (gs : List Seg) : Bool :=
  (List.range 128).all fun i => gs.any fun g =>
    decide (g.bit = 0) && decide (g.nbits % 8 = 0) && decide (g.key ≤ line + i) && decide (line + i < g.key + g.nbits / 8)

/-- A prefetch performs (R133, R256): into the L1 when it asks for it; the allocation in the home slice is not visible. A lost line is
left alone. -/
def State.performPrefetch (s : State) (r : Req) (o : MemOp) (l1 : Bool) : State :=
  let s := if l1 && !s.lostLine r.line then s.fillLine o.core r.line (o.hint == 2) else s
  (s.modReq r.id fun q => { q with state := .done }).settle o.fid

/-- A request performs, at the slice that serves its bank now (R138). -/
def State.performReq (s : State) (r : Req) (o : MemOp) : State :=
  let bank := s.servedBy r.bank
  match o.kind with
  | .prefetch l1 => s.performPrefetch r o l1
  | _ =>
  if s.lostLine r.line ∧ !(o.kind = .store ∧ coversLine r.line r.segs) then
    s.failOp o 0x15 14 (maskOf (r.segs.map Seg.lane))
  else
    let s := s.modPkg fun p => { p with lostLines := p.lostLines.filter fun q => q.2 != r.line }
    let s := s.beforePerform o r.line
    let l1 := s.viaL1 o r.line
    let s := if r.noAlloc then (if l1 && ((s.core o.core).l1Line? r.line).isSome then s else s.stage bank r.line)
      else if l1 then s.l1Allocate o r.line else s
    let (vs, s) := s.performSegs o r.line bank l1 r.segs
    let s := if o.tag ∧ o.kind.writes ∧ pkgOfKey r.line = s.pkg.pkgNo then s.addTag r.line bank o.core else s
    let got := vs.foldl (fun m p => SMap.set 0 m p.1 (SMap.get 0 m p.1 ||| BitVec.ofNat 128 p.2)) []
    let s := s.modReq r.id fun q => { q with state := .done, got := got }
    let s := if o.kind.writes then s.progressTeam o.team else s
    let s := s.settle o.fid
    match r.segs with
    | g :: _ => s.afterRead o r.line bank (SMap.get 0 got g.lane).toNat
    | [] => s

/-- HOME_SLICE_REQUEST (R111 to R115, R137, R147, R153). -/
def execHomeSliceRequest (r : Nat) (s : State) : Host.Outcome State Fault Refusal :=
  match s.req? r with
  | some q => match s.ownerOp q with
    | some o => if q.state = .sent then .next (s.performReq q o) else .next s
    | none => .next s
  | none => .next s

/-! ## Responses (R46, R250) -/

/-- What a lane of an operation has loaded, all its pieces together. -/
def State.loaded (s : State) (o : MemOp) (L : Nat) : Nat :=
  let bits := (s.reqs.filter fun r => r.op == o.id).foldl (fun v r => v ||| (SMap.get 0 r.got L).toNat) 0
  if o.signed ∧ o.nbits < 32 then wrap 32 (signed o.nbits bits) else bits

/-- The register writes of an operation's answer; a lane out of bounds receives zero (R123). -/
def State.answer (s : State) (o : MemOp) : List RegWrite :=
  let ls : Mask := if o.dcls = .uni then 1 else o.lanes
  let src := fun L => if o.dcls = .uni then (lanesOf o.lanes).headD 0 else L
  let val := fun L => if o.zeros.getLsbD (src L) then 0 else s.loaded o (src L)
  (List.range o.words).map fun w =>
    { cls := o.dcls, reg := o.dreg + w, lanes := ls,
      vals := (lanesOf ls).map fun L => (L, BitVec.ofNat 32 (val L / 2 ^ (32 * w))) }

/-- Performs the register writes of an outstanding result, which then is outstanding no more (R46). -/
def State.deliver (s : State) (r fid : Nat) (ws : List RegWrite) (fl : Nat) : State :=
  let s := { s with results := s.results.filter fun x => x.id != r }
  (((s.writeRegs fid none ws (some r)).raiseFlags fid none fl).wakeIfDone fid).comes fid

/-- The answer of an operation with a result that has performed: its registers are written. -/
def State.answerOp (s : State) (o : MemOp) (r : Nat) : State :=
  let ws := s.answer o
  { s with ops := s.ops.filter fun p => p.id != o.id, reqs := s.reqs.filter fun q => q.op != o.id }.deliver r o.fid ws 0

/-- LOAD_RESPONSE (R131, R250): of one line, which frees its slot while others of its operation are still to perform; of an operation
that has performed, whose registers are written. -/
def execLoadResponse (n : Nat) (s : State) : Host.Outcome State Fault Refusal :=
  match s.ops.find? fun o => o.id == n with
  | some o => match o.result with
    | some r => if o.performed then .next (s.answerOp o r) else .next s
    | none => .next s
  | none => match s.req? n with
    | some q => if q.state = .done then .next (s.modReq n fun q => { q with state := .answered }) else .next s
    | none => .next s

/-! ## Firmware calls (R328, R345) -/

/-- Whether n bytes from a virtual address can be read and written by the firmware (R328). -/
def State.openBytes (s : State) (ctx : Nat) : Nat → Nat → Bool × State
  | _, 0 => (true, s)
  | va, n + 1 =>
    match s.translateNoCache ctx va .read with
    | (.ok _, s) => match s.translateNoCache ctx va .write with
      | (.ok _, s) => s.openBytes ctx (va + 1) n
      | (_, s) => (false, s)
    | (_, s) => (false, s)

/-- Service 2: an entry of 32 bytes and then WR go into the launch's log ring; the answer is false when it is refused. -/
def State.logEntry (s : State) (l : Launch) (args : List Word) : Bool × State :=
  let ring := l.field 0x70 8
  if ring = 0 then (false, s)
  else match s.openBytes l.ctx ring 64 with
    | (false, s) => (false, s)
    | (true, s) => match s.virtRead l.ctx ring 12 with
      | (none, s) => (false, s)
      | (some h, s) =>
        let wr := h % 2 ^ 32
        let rd := h / 2 ^ 32 % 2 ^ 32
        let cap := h / 2 ^ 64
        if cap < 1 ∨ 2 ^ 20 < cap ∨ cap ≤ (wr + 2 ^ 32 - rd) % 2 ^ 32 then (false, s)
        else
          let at_ := ring + 64 + 32 * (wr % cap)
          match s.openBytes l.ctx at_ 32 with
          | (false, s) => (false, s)
          | (true, s) =>
            let entry := args.foldr (fun w n => w.toNat + 2 ^ 32 * n) 0
            let (_, s) := s.virtWrite l.ctx at_ 32 entry
            let (_, s) := s.virtWrite l.ctx ring 4 ((wr + 1) % 2 ^ 32)
            (true, s)

/-- The firmware serves a call: the eight words of D. -/
def State.serve (s : State) (c : FwCall) : List Word × State :=
  let zeros := List.replicate 7 (0 : Word)
  match c.service with
  | 0 => (0 :: c.args.drop 1, s)
  | 1 => (0 :: wordsOf 4 s.pkg.accepted.toNat ++ List.replicate 3 0, s)
  | 2 =>
    match ((s.fibre? c.fid).bind fun f => s.team? f.team).bind fun t => s.launch? t.launch with
    | none => (2 :: zeros, s)
    | some l => match s.logEntry l c.args with
      | (true, s) => (0 :: zeros, s)
      | (false, s) => (2 :: zeros, s)
  | _ => (1 :: zeros, s)

/-- The answer of a call: the writing of its results is an acquire at package scope. -/
def State.answerCall (s : State) (c : FwCall) : State :=
  let (ws, s) := s.serve c
  let s := { s with calls := s.calls.filter fun x => x.id != c.id }
  let s := match (s.fibre? c.fid).bind fun f => s.team? f.team with
    | some t => s.invalidateAll t.core
    | none => s
  let writes := (List.range 8).map fun k =>
    ({ cls := .uni, reg := c.dreg + k, lanes := 1, vals := [(0, ws.getD k 0)] } : RegWrite)
  s.deliver c.id c.fid writes 0

/-- RESULT_WRITEBACK (R46): a result whose values are known, or that of the firmware call that is served next (R328). -/
def execResultWriteback (r : Nat) (s : State) : Host.Outcome State Fault Refusal :=
  match s.results.find? fun x => x.id == r with
  | some x =>
    if x.known then .next (s.deliver r x.fid x.writes x.flags.toNat)
    else match s.calls with
      | c :: _ => if c.id = r then .next (s.answerCall c) else .next s
      | [] => .next s
  | none => .next s

/-! ## Remote timeouts (R471) -/

/-- Whether a remote request has waited 2^26 cycles for its answer. -/
def State.timedOut (s : State) (r : Req) : Bool :=
  decide (r.state = .sent) && decide (pkgOfKey r.line ≠ s.pkg.pkgNo) && decide (r.sentAt + 2 ^ 26 ≤ s.now)

/-- REMOTE_TIMEOUT (R471). -/
def execRemoteTimeout (r : Nat) (s : State) : Host.Outcome State Fault Refusal :=
  match s.req? r with
  | some q => match s.ownerOp q with
    | some o => if s.timedOut q then .next (s.failOp o 0x15 13 (maskOf (q.segs.map Seg.lane))) else .next s
    | none => .next s
  | none => .next s

/-! ## Trap entry (R412) -/

/-- Whether a fibre's trap can be entered: no results outstanding, at an entry point. -/
def State.trapReady (s : State) (f : Fibre) : Bool :=
  f.pending.isSome && !s.outstanding f.id && (decide (f.run = .trapping) || decide (f.run = .current) || decide (f.run = .ready))

/-- TRAP_ENTRY (R412, R414, R415). -/
def execTrapEntry (f : Nat) (s : State) : Host.Outcome State Fault Refusal :=
  match s.fibre? f with
  | some x => match x.pending with
    | some i => if s.trapReady x then .next (s.takeTrap f i) else .next s
    | none => .next s
  | none => .next s

end Sys2Proof.Machine
end

