-- ==== Sys2Proof/Machine/Memory.lean ====
section
/-! DEFINITION. Global loads and stores (R247 to R250), prefetch and cache control (R256, R257). -/

namespace Sys2Proof.Machine

/-! ## Shared shape -/

/-- The ordering kind of a load or store: MOD[5:4] (R248). -/
def accessOrder (isLoad : Bool) (hi2 : Nat) : Order :=
  match hi2 with
  | 0 => .weak
  | 1 => .relaxed
  | _ => if isLoad then .acquire else .release

/-- The bits of an element of a size code (R247). -/
def sizeBits (code : Nat) : Nat := match code with
  | 7 => 4
  | 8 => 6
  | _ => 8 * sizeBytes code

/-- The pieces of the in-bounds elements, with the data of each lane. -/
def elemPieces (es : List Elem) (data data2 : Nat → BitVec 128) : List (Nat × Seg) :=
  (es.filter Elem.inb).flatMap fun e => e.pieces (data e.lane) (data2 e.lane)

/-- The elements that the lanes of ACTIVE name with index B and offset C. -/
def Iss.elems (x : Iss) (b : Buf) (code : Nat) : List Elem :=
  (lanesOf x.act).map fun L => b.at L code (x.src 3 .u32 L) (signed 32 (x.src 4 .i32 L))

/-- An operation that no line leaves unanswered performs at once. -/
def Iss.sent (x : Iss) (s : State) : Act := .next (s.settle x.v.f.id)

/-- An access of memory: holds (R149, R164), the record and lane checks (R410), then translation and sending. -/
def Iss.access (x : Iss) (h : Hold) (perm : Perm) (code detail : Nat) (a : Ask) (data data2 : Nat → BitVec 128) : Act :=
  match x.held h with
  | some r => r
  | none =>
    let b := x.buf 2
    match x.bufTrap 2 b [perm] (sizeBytes code = 0) with
    | some t => t
    | none =>
      let es := x.elems b code
      match x.elemTrap b es (sizeBytes code) detail with
      | some t => t
      | none =>
        x.translateAndSend { a with zeros := elemMask es fun e => !e.inb } b (elemPieces es data data2) x.sent

/-- No data. -/
def noData : Nat → BitVec 128 := fun _ => 0

/-- The data that field D holds for a lane (R245). -/
def Iss.dData (x : Iss) (n : Nat) (L : Nat) : BitVec 128 :=
  BitVec.ofNat 128 (x.v.regs x.e.d.cls x.e.d.num.toNat L n)

/-! ## Loads and stores -/

/-- LD and LDU (R248 to R250). -/
def Iss.load (x : Iss) : Act :=
  let e := x.e
  let order := accessOrder true e.hi2
  x.access (x.v.s.accessHold x.v.f) .read e.lo4 1
    { kind := .load, order := order, scope := e.sc.toNat, signed := e.lo4 = 1 || e.lo4 = 3, nbits := sizeBits e.lo4,
      alloc := decide (e.ch ≠ 1), perm := .read, zeros := 0, dcls := e.d.cls,
      dreg := x.v.regNo e.d.cls e.d.num.toNat, words := sizeWords e.lo4, loads := true } noData noData

/-- LD (R247 to R250). -/
def execLd (e : Enc) (s : State) : Host.Outcome State Fault Refusal := issue (.ld e) e noStep3 Iss.load s

/-- LDU (R248): one access for the fibre, with the index that every lane of ACTIVE shares. -/
def execLdu (e : Enc) (s : State) : Host.Outcome State Fault Refusal := issue (.ldu e) e noStep3 Iss.load s

/-- ST (R247 to R250). -/
def execSt (e : Enc) (s : State) : Host.Outcome State Fault Refusal :=
  issue (.st e) e noStep3 (fun x =>
    let order := accessOrder false e.hi2
    x.access (if order.releases then x.v.s.releaseHold x.v.f else x.v.s.accessHold x.v.f) .write e.lo4 2
      { kind := .store, order := order, scope := e.sc.toNat, signed := false, nbits := sizeBits e.lo4,
        alloc := decide (e.ch ≠ 1) && decide (e.lo4 ≤ 6), perm := .write, zeros := 0, dcls := .none, dreg := 0, words := 0,
        loads := false } (x.dData (sizeWords e.lo4)) noData) s

/-! ## Prefetch and cache control (R256, R257) -/

/-- The lines of the bytes that the lanes name, in bounds, permitted and mapped; all others are dropped. -/
def Iss.namedLines (x : Iss) (perm : Perm) (b : Buf) (s : State) : List (Place × List Seg) × State :=
  let es := (x.elems b 0).filter fun e => e.inb && decide (e.va < 2 ^ 57)
  let (ts, s) := s.translateLines x.v.t.core x.v.l.ctx perm (gatherLines (elemPieces es noData noData))
  (mergePlaces (lineHits (s.behindLog x.v.f.id x.v.l.ctx ts)), s)

/-- What a prefetch asks of memory. -/
def prefetchAsk (l1 : Bool) : Ask :=
  { kind := .prefetch l1, order := .weak, scope := 0, signed := false, nbits := 8, alloc := l1, perm := .read, zeros := 0, dcls := .none,
    dreg := 0, words := 0, loads := false }

/-- A prefetch: requests for the lines that the package owns; `l1` allocates in the L1 (R131, R133, R256). -/
def Iss.prefetch (x : Iss) (l1 : Bool) : Act :=
  match x.held (x.v.s.accessHold x.v.f) with
  | some r => r
  | none =>
    let b := x.buf 2
    match x.bufTrap 2 b [] with
    | some t => t
    | none =>
      if !b.prd || decide (x.v.s.l1Steps x.v.t.core = 0) then .next x.v.s
      else
        let (ps, s) := x.namedLines .read b x.v.s
        x.sent (x.sendOp s (prefetchAsk l1) (ps.filter fun p => p.1.pkg == s.pkg.pkgNo))

/-- PF_L2 (R256): the allocation in the home slice is not visible. -/
def execPfL2 (e : Enc) (s : State) : Host.Outcome State Fault Refusal :=
  issue (.pfL2 e) e noStep3 (fun x => x.prefetch false) s

/-- PF_L1 (R256). -/
def execPfL1 (e : Enc) (s : State) : Host.Outcome State Fault Refusal :=
  issue (.pfL1 e) e noStep3 (fun x => x.prefetch true) s

/-- What waits for every earlier access of the fibre, so that its stores are covered. -/
def Iss.afterAll (x : Iss) (k : Iss → Act) : Act :=
  match x.held (x.v.s.accessHold x.v.f) with
  | some r => r
  | none => if x.v.s.pendingOps x.v.f.id ≠ [] then .hold x.v.s else k x

/-- A form that names lines, which needs no permission (R257). The lines are not counted: R130 lists neither form (DESIGN CHOICE,
log 29). -/
def Iss.cacheLines (x : Iss) (g : State → Place → State) : Act :=
  x.afterAll fun x =>
    let b := x.buf 2
    match x.bufTrap 2 b [] with
    | some t => t
    | none =>
      let (ps, s) := x.namedLines .any b x.v.s
      .next (ps.foldl (fun s p => g s p.1) s)

/-- CINV (R257). -/
def execCinv (e : Enc) (s : State) : Host.Outcome State Fault Refusal :=
  issue (.cinv e) e noStep3 (fun x =>
    x.cacheLines fun s p => (s.writeBackAt x.v.t.core p.key).dropLine x.v.t.core p.key) s

/-- CINV_ALL (R257). -/
def execCinvAll (e : Enc) (s : State) : Host.Outcome State Fault Refusal :=
  issue (.cinvAll e) e noStep3 (fun x => x.afterAll fun x => .next (x.v.s.invalidateAll x.v.t.core)) s

/-- CWB (R113, R257). -/
def execCwb (e : Enc) (s : State) : Host.Outcome State Fault Refusal :=
  issue (.cwb e) e noStep3 (fun x =>
    x.cacheLines fun s p => (s.writeBackAt x.v.t.core p.key).materialise p.key 128) s

/-- CWB_ALL (R257). -/
def execCwbAll (e : Enc) (s : State) : Host.Outcome State Fault Refusal :=
  issue (.cwbAll e) e noStep3 (fun x => x.afterAll fun x => .next (x.v.s.writeBackAll x.v.t.core)) s

end Sys2Proof.Machine
end

