-- ==== Sys2Proof/Machine/Scratch.lean ====
section
/-! DEFINITION. Scratchpad and cluster access (R251, R252), full/empty words (R253, R254), circular buffers (R255) and the
atomics of the scratchpad (R258, R259). -/

namespace Sys2Proof.Machine

/-! ## Targets (R252) -/

/-- A lane's access to a scratchpad: the owning team, its size, and the offset. -/
structure SpAcc where
  lane : Nat
  team : Nat
  size : Nat
  off : Int
deriving DecidableEq, Repr

/-- The number of ranks of the team's cluster (R252). -/
def View.ranks (v : View) : Nat := max 1 (v.kernel.clusterW * v.kernel.clusterH)

/-- The team of a rank. A rank below w × h names a resident team (R443); one whose team has ended stands for the own scratchpad: the
manual says nothing of it (DESIGN CHOICE, log 79). -/
def View.rankTeam (v : View) (k : Nat) : Team := ((v.s.clusterTeams v.t).find? fun t => t.crank == k).getD v.t

/-- The rank that a lane names; without a rank field, or in class 0, the own team. -/
def Iss.rank (x : Iss) (k : Option Nat) (L : Nat) : Option Nat :=
  match k with
  | some k => if (x.e.field k).cls = .none then none else some (x.src k .u32 L)
  | none => none

/-- The accesses of ACTIVE: rank field, address field, offset field. -/
def Iss.spAccs (x : Iss) (rk : Option Nat) (addr off : Nat) : List SpAcc :=
  (lanesOf x.act).map fun L =>
    let t := match x.rank rk L with
      | some k => x.v.rankTeam k
      | none => x.v.t
    { lane := L, team := t.id, size := t.scratch, off := (x.src addr .u32 L : Nat) + signed 32 (x.src off .i32 L) }

/-- The lanes of the accesses that pass a test. -/
def spMask (as : List SpAcc) (p : SpAcc → Bool) : Mask := maskOf ((as.filter p).map SpAcc.lane)

/-- The checks of R252: ranks, bounds, alignment. -/
def Iss.spTrap (x : Iss) (rk : Option Nat) (as : List SpAcc) (z : Nat) : Option Act :=
  let far := x.lanes fun L => decide (x.v.ranks ≤ (x.rank rk L).getD 0)
  let out := fun a : SpAcc => decide (a.off < 0) || decide ((a.size : Int) < a.off + z)
  let odd := fun a : SpAcc => decide (a.off % z ≠ 0)
  let own : Bool := match rk with
    | some k => decide ((x.e.field k).cls = .none)
    | none => true
  if far ≠ 0 then some (x.badValue 2 far)
  else if spMask as out ≠ 0 then
    some (.trap 8 0 (if own then 1 else 2) (spMask as out) (((as.find? out).map fun a => wrap 32 a.off).getD 0))
  else if spMask as odd ≠ 0 then some (.trap 5 0 z (spMask as odd) 0)
  else none

/-- Whether an access meets an uncorrectable word: one that it reads, or writes in part (R463, R464). -/
def SpAcc.bad (a : SpAcc) (s : State) (z : Nat) : Bool := ((s.team? a.team).map fun t => t.badWords a.off.toNat z).getD false

/-- A scratchpad instruction: holds, then checks, then uncorrectable words where the access does not write them whole, then the body on
the accesses. -/
def Iss.spad (x : Iss) (h : Hold) (rk : Option Nat) (addr off z : Nat) (whole : Bool) (body : List SpAcc → Act) : Act :=
  match x.held h with
  | some r => r
  | none =>
    let as := x.spAccs rk addr off
    match x.spTrap rk as z with
    | some t => t
    | none =>
      let bad := fun a : SpAcc => a.bad x.v.s z
      if !whole ∧ spMask as bad ≠ 0 then .trap 0x15 0 6 (spMask as bad) 0 else body as

/-- Reads the n bytes of an access. -/
def State.spadLoad (s : State) (a : SpAcc) (n : Nat) : Nat :=
  match s.team? a.team with
  | some t => spadRead t.spad a.off.toNat n
  | none => 0

/-- The value that an access gives its lane. -/
def spValue (as : List SpAcc) (g : SpAcc → Nat) (L : Nat) : Nat := ((as.find? fun a => a.lane == L).map g).getD 0

/-- LDS and LDC: zero- or sign-extended (R247, R252). -/
def Iss.spLoad (x : Iss) (rk : Option Nat) (addr off : Nat) : Act :=
  let code := x.e.lo4
  x.spad (x.v.s.accessHold x.v.f) rk addr off (sizeBytes code) false fun as =>
    let g := fun a =>
      let v := x.v.s.spadLoad a (sizeBytes code)
      if code = 1 ∨ code = 3 then wrap 32 (signed (8 * sizeBytes code) v) else v
    x.variable (x.writesTo x.e.d (sizeWords code) x.act (spValue as g))

/-- STS and STC: lanes in order (R252). -/
def Iss.spStore (x : Iss) (rk : Option Nat) (addr off : Nat) : Act :=
  let z := sizeBytes x.e.lo4
  x.spad (x.v.s.accessHold x.v.f) rk addr off z (decide (4 ≤ z)) fun as =>
    .next (as.foldl (fun s a => s.spadStore a.team a.off.toNat z (x.dData (sizeWords x.e.lo4) a.lane).toNat) x.v.s)

/-- LDS (R251, R252). -/
def execLds (e : Enc) (s : State) : Host.Outcome State Fault Refusal :=
  issue (.lds e) e noStep3 (fun x => x.spLoad none 2 3) s

/-- STS (R251, R252). -/
def execSts (e : Enc) (s : State) : Host.Outcome State Fault Refusal :=
  issue (.sts e) e noStep3 (fun x => x.spStore none 2 3) s

/-- LDC (R251, R252). -/
def execLdc (e : Enc) (s : State) : Host.Outcome State Fault Refusal :=
  issue (.ldc e) e noStep3 (fun x => x.spLoad (some 2) 3 4) s

/-- STC (R251, R252). -/
def execStc (e : Enc) (s : State) : Host.Outcome State Fault Refusal :=
  issue (.stc e) e noStep3 (fun x => x.spStore (some 2) 3 4) s

/-! ## Full/empty words (R254) -/

/-- Whether a lane performs on a word now: one with a place only when the word is reserved for it, another when the word
is in the state it needs and not reserved. -/
def Team.fePerforms (t : Team) (fid : Nat) (handler full : Bool) (lane w : Nat) : Bool :=
  let q := t.feq.filter fun e => e.word == w
  match q.find? fun e => e.fid == fid && e.lane == lane && e.handler == handler with
  | some e => e.reserved && (t.isFull w == full)
  | none => (t.isFull w == full) && !q.any FeWait.reserved

/-- A lane leaves its place in a word's queue. -/
def State.feLeave (s : State) (team w fid lane : Nat) (handler : Bool) : State :=
  let bit : Mask := BitVec.ofNat 32 (2 ^ lane)
  let s := s.modTeam team fun t =>
    { t with feq := t.feq.filter fun e => e.word != w || e.fid != fid || e.lane != lane || e.handler != handler }
  s.modFibre fid fun f => { f with reserved := f.reserved &&& ~~~bit }

/-- A lane waits: it keeps its place, or takes the last one. -/
def State.feWait (s : State) (team w fid lane : Nat) (handler full : Bool) : State :=
  let bit : Mask := BitVec.ofNat 32 (2 ^ lane)
  let s := s.modTeam team fun t =>
    if t.feq.any fun e => e.word == w && e.fid == fid && e.lane == lane && e.handler == handler then t
    else { t with feq := t.feq ++ [{ word := w, fid := fid, lane := lane, full := full, reserved := false, handler := handler }] }
  (s.modFibre fid fun f => { f with waiting := f.waiting ||| bit, reserved := f.reserved &&& ~~~bit }).feServe team w

/-- A place that a lane holds in the queue of another word ends: the lane has turned to this word. In the Handler state the place that
it held before its trap is kept (R412). -/
def State.feTurn (s : State) (team w fid lane : Nat) (handler : Bool) : State :=
  let other := fun (t : Team) (e : FeWait) => e.fid == fid && e.lane == lane && e.handler == handler && (e.word != w || t.id != team)
  if s.teams.any fun t => t.feq.any (other t) then
    let words := s.teams.flatMap fun t => (t.feq.filter (other t)).map fun e => (t.id, e.word)
    let teams := s.teams.map fun t => { t with feq := t.feq.filter fun e => !other t e }
    { s with teams := teams }.feLook words
  else s

/-- One lane of `ldfe` (which reads and empties) or `stfe` (which writes and fills). -/
def State.feLane (s : State) (fid : Nat) (handler load : Bool) (data : Nat → Nat) (a : SpAcc) : State × Option (Nat × Nat) :=
  let w := a.off.toNat / 4
  let s := s.feTurn a.team w fid a.lane handler
  match s.team? a.team with
  | none => (s, none)
  | some t =>
    if t.fePerforms fid handler load a.lane w then
      let v := spadRead t.spad (4 * w) 4
      let s := if load then s.progressTeam a.team else s.spadStore a.team (4 * w) 4 (data a.lane)
      let s := s.modTeam a.team fun t => { t with fe := SMap.set false t.fe w (!load) }
      ((s.feLeave a.team w fid a.lane handler).feServe a.team w, some (a.lane, v))
    else (s.feWait a.team w fid a.lane handler load, none)

/-- The lanes in order, with those that performed and the values they found. -/
def State.feLanes (s : State) (fid : Nat) (handler load : Bool) (data : Nat → Nat) : List SpAcc → List (Nat × Nat) × State
  | [] => ([], s)
  | a :: as =>
    let (s, r) := s.feLane fid handler load data a
    let (rs, s) := s.feLanes fid handler load data as
    (r.toList ++ rs, s)

/-- LDFE and STFE: an acquire and a release at die scope (R157, R254). An `stfe` whose operands are all uniform runs once, for the lowest
lane of ACTIVE, and the other lanes go on (R73; log 77). -/
def Iss.fullEmpty (x : Iss) (load : Bool) : Act :=
  let c := x.v.t.core
  x.spad (if load then x.v.s.strongHold x.v.f else x.v.s.arriveHold x.v.f 1) (some 2) 3 4 4 (!load) fun as =>
    let s := if load then x.v.s else x.v.s.writeBackAll c
    let served := if x.once then as.take 1 else as
    let (done, s) := s.feLanes x.v.f.id x.v.f.handler load (fun L => (x.dData 1 L).toNat) served
    let m := maskOf (done.map Prod.fst) ||| (x.act &&& ~~~maskOf (served.map SpAcc.lane))
    let s := x.advance s m
    if load ∧ done ≠ [] then
      let ws := x.writesTo x.e.d 1 m fun L => ((done.find? fun p => p.1 == L).map Prod.snd).getD 0
      .moved ((s.invalidateAll c).addResult x.v.f.id true ws 0).2
    else .moved s

/-- LDFE (R254). -/
def execLdfe (e : Enc) (s : State) : Host.Outcome State Fault Refusal :=
  issue (.ldfe e) e noStep3 (fun x => x.fullEmpty true) s

/-- STFE (R254). -/
def execStfe (e : Enc) (s : State) : Host.Outcome State Fault Refusal :=
  issue (.stfe e) e noStep3 (fun x => x.fullEmpty false) s

/-- A reservation of a word ends, and its lane waits again at the head of the queue. -/
def State.feUnreserve (s : State) (team w : Nat) : State :=
  match s.team? team with
  | none => s
  | some t => match t.feq.find? fun e => e.word == w && e.reserved with
    | none => s
    | some e =>
      let bit : Mask := BitVec.ofNat 32 (2 ^ e.lane)
      let s := s.modTeam team fun t =>
        { t with feq := t.feq.map fun x => if x.word = w then { x with reserved := false } else x }
      s.modFibre e.fid fun f => { f with waiting := f.waiting ||| bit, reserved := f.reserved &&& ~~~bit }

/-- `fset` of one lane. -/
def State.fsetLane (s : State) (full : Bool) (a : SpAcc) : State :=
  let w := a.off.toNat / 4
  match s.team? a.team with
  | none => s
  | some t =>
    let s := if t.isFull w != full then s.feUnreserve a.team w else s
    (s.modTeam a.team fun t => { t with fe := SMap.set false t.fe w full }).feServe a.team w

/-- FSET (R254). -/
def Iss.fset (x : Iss) (full : Bool) : Act :=
  x.spad (x.v.s.strongHold x.v.f) (some 2) 3 4 4 true fun as => .next (as.foldl (fun s a => s.fsetLane full a) x.v.s)

/-- FSET_EMPTY (R254). -/
def execFsetEmpty (e : Enc) (s : State) : Host.Outcome State Fault Refusal :=
  issue (.fsetEmpty e) e noStep3 (fun x => x.fset false) s

/-- FSET_FULL (R254). -/
def execFsetFull (e : Enc) (s : State) : Host.Outcome State Fault Refusal :=
  issue (.fsetFull e) e noStep3 (fun x => x.fset true) s

/-! ## Circular buffers (R255) -/

/-- The checks that every other instruction makes on its buffer before its own: the number, then NS. -/
def Iss.cbTrap (x : Iss) : Option Act :=
  if 15 < x.u32 2 then some (x.badValue 2 x.act)
  else if (x.v.t.cbuf (x.u32 2)).ns = 0 then some (.trap 13 0 3 x.act 0)
  else none

/-- Whether an engine copy into a buffer is pending. -/
def Team.cpcbPending (t : Team) (b : Nat) : Bool := t.queues.any fun q => decide (q.kind = .cpcb) && decide (q.vals.head? = some b)

/-- CBCFG (R255). -/
def Iss.cbcfg (x : Iss) : Act :=
  let b := x.u32 2
  let base := x.u32 3
  let sz := x.u32 4
  let ns := x.u32 5
  let c := x.v.t.cbuf b
  let busy := decide (c.ns ≠ 0) && (decide (c.free < c.ns) || x.v.t.cpcbPending b ||
    (x.v.s.fibres.any fun f => f.team == x.v.t.id && decide (f.waits = .cb b)))
  if 15 < b then x.badValue 2 x.act
  else if base % 16 ≠ 0 then x.badValue 3 x.act
  else if sz % 16 ≠ 0 ∨ sz < 16 ∨ 65520 < sz then x.badValue 4 x.act
  else if ns < 1 ∨ 255 < ns then x.badValue 5 x.act
  else if x.v.t.scratch < base + ns * sz then x.badValue 5 x.act
  else if busy then .trap 13 0 1 x.act 0
  else .next (x.v.s.modCb x.v.t.id b fun _ => { CBuf.blank with base := base, sz := sz / 16, ns := ns, free := ns })

/-- CBCFG (R255). -/
def execCbcfg (e : Enc) (s : State) : Host.Outcome State Fault Refusal := issue (.cbcfg e) e noStep3 Iss.cbcfg s

/-- A take: of a filled slot, or of one to fill. -/
def Iss.cbTake (x : Iss) (fill : Bool) : Act :=
  match x.held (x.v.s.accessHold x.v.f) with
  | some r => r
  | none => match x.cbTrap with
    | some t => t
    | none =>
      let b := x.u32 2
      let c := x.v.t.cbuf b
      if (if fill then c.free else c.filled) = 0 then x.park x.v.s .parked (.cb b)
      else
        let off := c.offset (if fill then c.wp else c.rp)
        let s := x.v.s.modCb x.v.t.id b fun c => if fill then c.claim else c.take
        .next (s.addResult x.v.f.id true (x.writesTo x.e.d 1 x.act fun _ => off) 0).2

/-- CBTAKE (R255). -/
def execCbtake (e : Enc) (s : State) : Host.Outcome State Fault Refusal :=
  issue (.cbtake e) e noStep3 (fun x => x.cbTake false) s

/-- CBTAKE_FILL (R255). -/
def execCbtakeFill (e : Enc) (s : State) : Host.Outcome State Fault Refusal :=
  issue (.cbtakeFill e) e noStep3 (fun x => x.cbTake true) s

/-- CBGIVE (R255): every earlier access of the fibre performs before the slot is given back (R157). -/
def Iss.cbGive (x : Iss) : Act :=
  match x.held (x.v.s.arriveHold x.v.f 0) with
  | some r => r
  | none => match x.cbTrap with
    | some t => t
    | none =>
      let b := x.u32 2
      let c := x.v.t.cbuf b
      if c.rp = c.gp ∧ c.filled + c.free = c.ns then .trap 13 0 2 x.act 0
      else .next (x.v.s.modCb x.v.t.id b CBuf.give)

/-- CBGIVE (R255). -/
def execCbgive (e : Enc) (s : State) : Host.Outcome State Fault Refusal := issue (.cbgive e) e noStep3 Iss.cbGive s

/-- CBGIVE_FILL waits until every earlier store of the fibre has performed (R255). -/
def Iss.cbGiveFill (x : Iss) : Act :=
  match x.held (x.v.s.releaseHold x.v.f) with
  | some r => r
  | none => match x.cbTrap with
    | some t => t
    | none =>
      let b := x.u32 2
      match (x.v.t.cbuf b).oldest with
      | none => .trap 13 0 2 x.act 0
      | some i =>
        if (x.v.s.pendingOps x.v.f.id).any fun o => o.kind.writes then .hold x.v.s
        else .next (x.v.s.modCb x.v.t.id b fun c => c.fill i)

/-- CBGIVE_FILL (R255). -/
def execCbgiveFill (e : Enc) (s : State) : Host.Outcome State Fault Refusal :=
  issue (.cbgiveFill e) e noStep3 Iss.cbGiveFill s

/-! ## Atomics of the scratchpad (R258, R259) -/

/-- The operation of MOD[3:0]. -/
def atomKind : Nat → MemKind
  | 0 => .add
  | 1 => .sub
  | 2 => .minOp
  | 3 => .maxOp
  | 4 => .andOp
  | 5 => .orOp
  | 6 => .xorOp
  | 7 => .xchg
  | 8 => .cas
  | 9 => .inc
  | _ => .dec

/-- The ordering kind of EXT[2:0]. -/
def atomOrder : Nat → Order
  | 1 => .acquire
  | 2 => .release
  | 3 => .acqRel
  | _ => .relaxed

/-- The bits of the type. -/
def atomBitsOf (e : Enc) : Nat := 32 * e.atomWords

/-- Whether the type is signed. -/
def atomSignedOf (e : Enc) : Bool := e.hi2 % 2 = 1

/-- The data of a lane: b, and the new value of `.cas`. -/
def Iss.atomData (x : Iss) (L : Nat) : Nat × Nat :=
  let d := x.src 5 ⟨32 * x.e.atomData, 32 * x.e.atomData, false, false⟩ L
  (d % 2 ^ (atomBitsOf x.e), if x.e.lo4 = 8 then d / 2 ^ (atomBitsOf x.e) else 0)

/-- The lanes in order on the scratchpad, with the old values. -/
def Iss.spadRmws (x : Iss) : List SpAcc → State → List (Nat × Nat) × State
  | [], s => ([], s)
  | a :: as, s =>
    let n := (atomBitsOf x.e)
    let old := s.spadLoad a (n / 8)
    let d := x.atomData a.lane
    let new := atomNew (atomKind x.e.lo4) (atomSignedOf x.e) n old d.1 d.2
    let (rs, s) := x.spadRmws as (s.spadStore a.team a.off.toNat (n / 8) new)
    ((a.lane, old) :: rs, s)

/-- A strong access to a scratchpad word meets the word's promotion tag: an acquire at die scope or wider from another core promotes the
core that it names, any other access notes it (R151, R152). -/
def State.spMeet (s : State) (fid core : Nat) (serve : Bool) (a : SpAcc) : State :=
  let tag := (s.team? a.team).bind fun t => t.spTags.find? fun p => p.1 == a.off.toNat / 4
  match tag with
  | none => s
  | some (w, c) =>
    if c = core then s
    else if serve then (s.promote c).modTeam a.team fun t => { t with spTags := t.spTags.filter fun p => p.1 != w }
    else s.modFibre fid fun f => { f with heard := if f.heard.contains c then f.heard else c :: f.heard }

/-- A core-scope release tags a scratchpad word with its core, once the core that a tag names already has been promoted (R152). -/
def State.spTag (s : State) (fid core : Nat) (a : SpAcc) : State :=
  (s.spMeet fid core true a).modTeam a.team fun t =>
    let w := a.off.toNat / 4
    { t with spTags := (t.spTags.filter fun p => p.1 != w) ++ [(w, core)] }

/-- ATOMS and REDS (R258, R259): strong read-modify-writes, ordered by R148 to R152 where they perform. -/
def Iss.spadAtomic (x : Iss) (returns : Bool) : Act :=
  let order := atomOrder x.e.ext3
  let wide := decide (1 ≤ x.e.sc.toNat)
  let c := x.v.t.core
  x.spad (if order.releases then x.v.s.arriveHold x.v.f x.e.sc.toNat else x.v.s.strongHold x.v.f) (some 2) 3 4 ((atomBitsOf x.e) / 8)
      false fun as =>
    let s := if order.releases && wide then x.v.s.writeBackAll c else x.v.s
    let s := as.foldl (fun s a => s.spMeet x.v.f.id c (order.acquires && wide) a) s
    let s := if (order.releases && !wide) || x.v.f.coreFence then as.foldl (fun s a => s.spTag x.v.f.id c a) s else s
    let (rs, s) := x.spadRmws (if x.once then as.take 1 else as) s
    let s := if order.acquires && wide then s.invalidateAll c else s
    if returns then
      let ws := x.writesTo x.e.d x.e.atomWords x.act fun L => ((rs.find? fun p => p.1 == L).map Prod.snd).getD 0
      .next (s.addResult x.v.f.id true ws 0).2
    else .next s

/-- ATOMS (R258, R259). -/
def execAtoms (e : Enc) (s : State) : Host.Outcome State Fault Refusal :=
  issue (.atoms e) e noStep3 (fun x => x.spadAtomic true) s

/-- REDS (R258, R259). -/
def execReds (e : Enc) (s : State) : Host.Outcome State Fault Refusal :=
  issue (.reds e) e noStep3 (fun x => x.spadAtomic false) s

end Sys2Proof.Machine
end

