-- ==== Sys2Proof/Machine/Atomic.lean ====
section
/-! DEFINITION. Global atomics, reductions and exact sums (R258 to R260). -/

namespace Sys2Proof.Machine

/-- A read-modify-write of memory. -/
def Iss.rmw (x : Iss) (kind : MemKind) (order : Order) (nbits : Nat) (sg returns : Bool) (data : Nat → Nat × Nat) : Act :=
  let code := if nbits = 64 then 5 else 4
  x.access (if order.releases then x.v.s.releaseHold x.v.f else x.v.s.accessHold x.v.f) .atomic code 3
    { kind := kind, order := order, scope := x.e.sc.toNat, signed := sg, nbits := nbits, alloc := false, perm := .atomic,
      zeros := 0, dcls := x.e.d.cls, dreg := x.v.regNo x.e.d.cls x.e.d.num.toNat, words := nbits / 32, loads := returns }
    (fun L => BitVec.ofNat 128 (data L).1) (fun L => BitVec.ofNat 128 (data L).2)

/-- ATOM (R258, R259). -/
def execAtom (e : Enc) (s : State) : Host.Outcome State Fault Refusal :=
  issue (.atom e) e noStep3
    (fun x => x.rmw (atomKind e.lo4) (atomOrder e.ext3) (atomBitsOf e) (atomSignedOf e) true x.atomData) s

/-- RED (R258, R259). -/
def execRed (e : Enc) (s : State) : Host.Outcome State Fault Refusal :=
  issue (.red e) e noStep3
    (fun x => x.rmw (atomKind e.lo4) (atomOrder e.ext3) (atomBitsOf e) (atomSignedOf e) false x.atomData) s

/-- XADD (R260). -/
def execXadd (e : Enc) (s : State) : Host.Outcome State Fault Refusal :=
  issue (.xadd e) e noStep3 (fun x =>
    let kind := if e.mod = 0 then MemKind.xaddF else if e.rm = 5 then .xaddISat else .xaddI
    x.rmw kind (atomOrder e.ext3) 32 false false
      fun L => (x.src 5 (if e.mod = 0 then .f32 else .i32) L, 0)) s

end Sys2Proof.Machine
end

