-- ==== Sys2Proof/Machine/Sync.lean ====
section
/-! DEFINITION. Fences (R150, R261), queue fences (R164, R262), barriers (R156, R263, R264), waiting on an address (R137,
R265) and the handoff of windows (R266 to R269). -/

namespace Sys2Proof.Machine

/-! ## Fences -/

/-- A fence joins the fibre's operations and performs when those it waits for have (R148, R150); one of core scope that
releases marks the fibre's later strong stores (R153). -/
def Iss.fence (x : Iss) (order : Order) : Act :=
  let v := x.v
  match x.held (if order.releases && decide (v.s.ownLog v.f.id ≠ []) then .log else .free) with
  | some r => r
  | none =>
    let scope := x.e.sc.toNat
    let (id, s) := v.s.fresh
    let op : MemOp :=
      { id := id, fid := v.f.id, team := v.t.id, core := v.t.core, kind := .store, order := order, scope := scope,
        fence := true, signed := false, nbits := 0, alloc := false, hint := 0, ip := v.ip, lanes := x.act, zeros := 0,
        dcls := .none, dreg := 0, words := 0, result := none, tag := false, performed := false }
    let s := { s with ops := s.ops ++ [op] }
    let s := if order.releases ∧ scope = 0 then s.modFibre v.f.id fun f => { f with coreFence := true } else s
    x.sent s

/-- FENCE_ACQ (R150, R261). -/
def execFenceAcq (e : Enc) (s : State) : Host.Outcome State Fault Refusal :=
  issue (.fenceAcq e) e noStep3 (fun x => x.fence .acquire) s

/-- FENCE_REL (R150, R261). -/
def execFenceRel (e : Enc) (s : State) : Host.Outcome State Fault Refusal :=
  issue (.fenceRel e) e noStep3 (fun x => x.fence .release) s

/-- FENCE_AR (R150, R261). -/
def execFenceAr (e : Enc) (s : State) : Host.Outcome State Fault Refusal :=
  issue (.fenceAr e) e noStep3 (fun x => x.fence .acqRel) s

/-! ## Queue fences (R164) -/

/-- Whether something of a list has still to perform: an operation, or a side-log entry of one (R164, R438). -/
def State.anyLives (s : State) (ids : List Nat) : Bool := ids.any s.opLives || s.logLives ids

/-- The operations that a queue mask names at a fibre's `qfence`. -/
def State.named (s : State) (t : Team) (fid mask : Nat) : List Nat :=
  let engines := t.queues.filter fun q => decide (q.queue ≠ 0) && bitN mask q.queue
  let rows := s.sideLog.filterMap fun e => e.owner.bind fun o =>
    if e.team = t.id ∧ ((bitN mask 5 : Bool) = true) then some o else none
  let own := if bitN mask 0 then (s.pendingOps fid).map MemOp.id ++ (s.ownLog fid).map LogEntry.id else []
  engines.map EngOp.id ++ rows.eraseDups ++ own

/-- What an operation that enters an engine queue waits behind (R164). -/
def State.qholdOf (s : State) (t : Team) (queue : Nat) : List Nat :=
  (t.qfences.filter fun q => bitN q.mask.toNat queue && s.anyLives q.before).flatMap QFence.before

/-- QFENCE (R164, R262). -/
def Iss.qfence (x : Iss) : Act :=
  let v := x.v
  let m := x.e.a.imm % 128
  let before := v.s.named v.t v.f.id m
  let s := v.s.modTeam v.t.id fun t =>
    { t with qfences := (t.qfences.filter fun q => v.s.anyLives q.before) ++ [⟨BitVec.ofNat 7 m, before⟩] }
  let s := if bitN m 0 then
      s.modFibre v.f.id fun f => { f with qhold := (f.qhold ++ before).filter fun i => v.s.anyLives [i] }
    else s
  .next s

/-- QFENCE (R262). -/
def execQfence (e : Enc) (s : State) : Host.Outcome State Fault Refusal := issue (.qfence e) e noStep3 Iss.qfence s

/-! ## Barriers (R264) -/

/-- A barrier in the Handler state traps (R413). -/
def noHandler (x : Iss) : Option (Nat × Nat) := if x.v.f.handler then some (18, 2) else none

/-- The fibre waits in the Barrier state and arrives once every earlier access of it has performed (R50, R148, R156); its own side-log
entries hold it before that (R438). -/
def Iss.arriving (x : Iss) (which : Nat) : Act :=
  if x.v.s.ownLog x.v.f.id ≠ [] then .hold (x.v.s.leave x.v.f.id .held .log)
  else .moved ((x.v.s.leave x.v.f.id .barrier (.coming which x.act)).comes x.v.f.id)

/-- The number of the barrier. -/
def Iss.barNo (x : Iss) : Nat := x.e.a.imm % 8

/-- `bar` and `bara`: behind an incomplete arrival of the fibre the fibre first parks. `bara` arrives and goes on; its arrival is a
release that waits for every earlier access of the fibre (R156). -/
def Iss.teamBarrier (x : Iss) (waits : Bool) : Act :=
  let b := x.barNo
  let fid := x.v.f.id
  let tid := x.v.t.id
  let bar := barrAt x.v.t.bars b
  if bar.arrived.contains fid then x.park x.v.s .parked (.barw b)
  else if waits then x.arriving b
  else match x.held (x.v.s.arriveHold x.v.f 0) with
    | some r => r
    | none =>
      let s := x.v.s.modTeam tid fun t => { t with bars := SMap.set ⟨0, []⟩ t.bars b ⟨bar.phase, bar.arrived ++ [fid]⟩ }
      let s := s.modFibre fid fun f => { f with arrived := SMap.set 0 f.arrived b (bar.phase + 1) }
      .next (s.checkBar tid b)

/-- BAR (R264). -/
def execBar (e : Enc) (s : State) : Host.Outcome State Fault Refusal :=
  issue (.bar e) e noHandler (fun x => x.teamBarrier true) s

/-- BARA (R264). -/
def execBara (e : Enc) (s : State) : Host.Outcome State Fault Refusal :=
  issue (.bara e) e noHandler (fun x => x.teamBarrier false) s

/-- BARW (R264): at once when the phase of the latest arrival has completed. -/
def execBarw (e : Enc) (s : State) : Host.Outcome State Fault Refusal :=
  issue (.barw e) e noHandler (fun x =>
    let b := x.barNo
    if SMap.get 0 x.v.f.arrived b ≤ (barrAt x.v.t.bars b).phase then .next x.v.s else x.park x.v.s .parked (.barw b)) s

/-- CBAR (R264): an arrival is a release at die scope (R156). -/
def execCbar (e : Enc) (s : State) : Host.Outcome State Fault Refusal :=
  issue (.cbar e) e noHandler (fun x => x.arriving 9) s

/-- FBAR (R49, R264): the fibre's writes are performed before its arrival counts. -/
def execFbar (e : Enc) (s : State) : Host.Outcome State Fault Refusal :=
  issue (.fbar e) e noHandler (fun x => x.arriving 8) s

/-! ## Waiting on an address (R137, R265) -/

/-- The one word that a fibre accesses: its element for every lane of ACTIVE, so that masks come out as ACTIVE. -/
def Iss.oneWord (x : Iss) (b : Buf) : List Elem :=
  (lanesOf x.act).map fun L => b.at L 4 (x.u32 3) (x.i32 4)

/-- A read of one word for the fibre, under a watch. -/
def Iss.watchWord (x : Iss) (es : List Elem) (b : Buf) (kind : MemKind) (order : Order) (scope dreg : Nat) (w : Waits) : Act :=
  x.translateAndSend
    { kind := kind, order := order, scope := scope, signed := false, nbits := 32, alloc := false, perm := .read, zeros := 0,
      dcls := .uni, dreg := dreg, words := 1, loads := false } b (elemPieces es noData noData)
    fun s => x.park s .parked w

/-- WADDR (R137, R265). -/
def Iss.waddr (x : Iss) : Act :=
  match x.held (x.v.s.accessHold x.v.f) with
  | some r => r
  | none =>
    let tmo := x.u32 1
    if tmo = 0 then x.badValue 1 x.act
    else
      let b := x.buf 2
      match x.bufTrap 2 b [.read] with
      | some t => t
      | none =>
        let es := x.oneWord b
        match x.elemTrap b es 4 1 with
        | some t => t
        | none =>
          if es.all fun e => !e.inb then .next x.v.s
          else x.watchWord es b (.watch (BitVec.ofNat 32 (x.u32 5))) .weak 0 0 (.waddr (x.v.s.now + tmo) x.act)

/-- WADDR (R265). -/
def execWaddr (e : Enc) (s : State) : Host.Outcome State Fault Refusal := issue (.waddr e) e noStep3 Iss.waddr s

/-- Whether the timeout of a fibre's `waddr` has lapsed. -/
def State.waddrLapsed (s : State) (f : Nat) : Option Mask :=
  match s.fibre? f with
  | some x => match x.waits with
    | .waddr u lanes => if u ≤ s.now then some lanes else none
    | _ => none
  | none => none

/-- A fibre's watches, and the reads that would register one, end. -/
def State.dropWatches (s : State) (f : Nat) : State :=
  let watching := fun o : MemOp => o.fid == f && !o.fence && !o.kind.isRmw && decide (o.kind ≠ .load) && decide (o.kind ≠ .store)
  let ids := (s.ops.filter watching).map MemOp.id
  { s with
    ops := s.ops.filter fun o => !watching o, reqs := s.reqs.filter fun r => !ids.contains r.op,
    watches := s.watches.filter fun w => w.fid != some f }.settle f

/-- WADDR_TIMEOUT (R137). -/
def execWaddrTimeout (f : Nat) (s : State) : Host.Outcome State Fault Refusal :=
  match s.waddrLapsed f with
  | some lanes => .next ((s.dropWatches f).wakePast f lanes)
  | none => .next s

/-! ## Windows (R266 to R269) -/

/-- The word of an offer. -/
def offerWord (role size base : Nat) : Nat := 2 ^ 31 + role * 2 ^ 26 + size * 2 ^ 16 + base

/-- Whether a window is one that R39 permits. -/
def windowOk (base size : Nat) : Bool :=
  decide (base % 8 = 0) && decide (base ≤ 504) && decide (size % 8 = 0) && decide (8 ≤ size) && decide (size ≤ 256) &&
    decide (base + size ≤ 512)

/-- The fibre of a role in the slot. -/
def View.mate (v : View) (role : Nat) : Option Fibre := (v.s.slotMates v.f).find? fun g => g.role == role

/-- The predicate D takes one value in every lane of ACTIVE; the result is of variable latency. -/
def Iss.predResult (x : Iss) (s : State) (ok : Bool) : Act :=
  .next (s.addResult x.v.f.id true (x.writesTo x.e.d 1 x.act fun _ => b2n ok) 0).2

/-- FGIVE (R267). -/
def Iss.fgive (x : Iss) : Act :=
  let v := x.v
  let r := x.u32 2
  let base := x.u32 3
  let size := x.u32 4
  let mb := x.e.e.num.toNat
  let target := (v.mate r).getD v.f
  if v.t.perSlot ≤ r then x.badValue 2 x.act
  else if base % 8 ≠ 0 ∨ 504 < base then x.badValue 3 x.act
  else if size % 8 ≠ 0 ∨ size < 8 ∨ 256 < size ∨ 512 < base + size then x.badValue 4 x.act
  else if base < v.base ∨ v.base + v.size < base + size then x.badValue 3 x.act
  else if target.allot ≤ mb then x.badValue 5 x.act
  else if v.s.outstanding v.f.id then .hold v.s
  else if target.run = .ended ∨ bitN (SMap.get 0 target.uregs mb).toNat 31 then x.predResult v.s false
  else
    let s := v.s.modFibre target.id fun f =>
      { f with uregs := SMap.set 0 f.uregs mb (BitVec.ofNat 32 (offerWord v.f.role size base)) }
    let s := s.modFibre v.f.id fun f => { f with hazards := f.hazards.map fun h => { h with offered := target.id :: h.offered } }
    x.predResult s true

/-- FGIVE (R267). -/
def execFgive (e : Enc) (s : State) : Host.Outcome State Fault Refusal := issue (.fgive e) e noStep3 Iss.fgive s

/-- What the claimed offer of a giver orders: the writes that it had issued at its `fgive` (R49, R268). -/
def State.claimFrom (s : State) (giver taker : Nat) : State :=
  s.modFibre giver fun f =>
    { f with hazards := f.hazards.map fun h => if h.offered.contains taker then { h with ordered := taker :: h.ordered } else h }

/-- FCLAIM (R268). -/
def Iss.fclaim (x : Iss) (set_ : Bool) : Act :=
  let v := x.v
  let mb := x.e.a.num.toNat
  let w := (v.reg .uni mb 0).toNat
  let base := bits w 8 0
  let size := bits w 24 16
  let role := bits w 27 26
  if !bitN w 31 then x.predResult v.s false
  else if w ≠ offerWord role size base ∨ !windowOk base size then x.badValue 2 x.act
  else
    let s := v.s.writeReg v.f.id none { cls := .uni, reg := mb, lanes := 1, vals := [(0, 0)] }
    let s := match v.mate role with
      | some g => s.claimFrom g.id v.f.id
      | none => s
    let s := if set_ then s.modFibre v.f.id fun f => { f with winNext := some (base, size) } else s
    x.predResult s true

/-- FCLAIM_SYNC (R268). -/
def execFclaimSync (e : Enc) (s : State) : Host.Outcome State Fault Refusal :=
  issue (.fclaimSync e) e noStep3 (fun x => x.fclaim false) s

/-- FCLAIM_SET (R268). -/
def execFclaimSet (e : Enc) (s : State) : Host.Outcome State Fault Refusal :=
  issue (.fclaimSet e) e noStep3 (fun x => x.fclaim true) s

/-- FWIN (R269). -/
def execFwin (e : Enc) (s : State) : Host.Outcome State Fault Refusal :=
  issue (.fwin e) e noStep3 (fun x => x.variable (x.writesTo e.d 1 x.act fun _ => x.v.base + x.v.size * 2 ^ 16)) s

end Sys2Proof.Machine
end

