-- ==== Sys2Proof/Machine/Engine.lean ====
section
/-! DEFINITION. The engine queues of a team (R162 to R164, R270 to R273): entering one, the accesses of an operation run
by run (R274, R294, R429, R441), and its end. -/

namespace Sys2Proof.Machine

/-! ## Checks of step 3 (R270, R271) -/

/-- The partial-mask check (R270). -/
def partialMask (x : Iss) : Option (Nat × Nat) :=
  if x.act = x.v.f.live ∨ (x.act = 0 ∧ x.v.mask = x.v.f.live) then none else some (11, 0)

/-- The partial-mask check and the no-lease check (R271). -/
def needsLease (x : Iss) : Option (Nat × Nat) :=
  match partialMask x with
  | some t => some t
  | none => if x.v.kernel.llen = 0 then some (12, 0) else none

/-- The partial-mask check and the check for Bellwether entries (R291, R300). -/
def needsEntries (x : Iss) : Option (Nat × Nat) :=
  match partialMask x with
  | some t => some t
  | none => if x.v.t.nslots = 0 then some (14, 1) else none

/-! ## Queues -/

/-- The operations of a queue, oldest first. -/
def Team.queue (t : Team) (q : Nat) : List EngOp := t.queues.filter fun o => o.queue == q

/-- An instruction whose queue is full does not issue (R272). -/
def Iss.intoQueue (x : Iss) (q : Nat) (k : Iss → Act) : Act := if 16 ≤ (x.v.t.queue q).length then .hold x.v.s else k x

/-- What an instruction hands to an engine. -/
structure Work where
  kind : EngKind
  queue : Nat
  vals : List Nat
  laneVals : SMap (BitVec 128)
  recD : Nat
  recA : Nat
  mode : Nat
  returns : Bool
  /-- what has to perform before it begins -/
  after : List Nat
deriving DecidableEq, Repr

/-- Work with no lanes, records or result. -/
def Work.of (kind : EngKind) (queue : Nat) (vals : List Nat) : Work := ⟨kind, queue, vals, [], 0, 0, 0, false, []⟩

/-- The operation enters its queue behind what queue fences hold it (R162, R164); an instruction that writes a register
makes results outstanding (R46, R272). -/
def Iss.enqueueOn (x : Iss) (s : State) (w : Work) : State :=
  let v := x.v
  let (res, s) := if w.returns then
      let (r, s) := s.addResult v.f.id false [] 0
      (some r, s)
    else (none, s)
  let (id, s) := s.fresh
  let t := (s.team? v.t.id).getD v.t
  let op : EngOp :=
    { id := id, kind := w.kind, queue := w.queue, fid := v.f.id, ip := v.ip, lanes := x.act, enc := x.e, mode := w.mode,
      vals := w.vals, laneVals := w.laneVals, recD := BitVec.ofNat 256 w.recD, recA := BitVec.ofNat 256 w.recA, pos := 0,
      begun := false, held := none, after := w.after ++ s.qholdOf t w.queue, result := res, part := 0, got := 0, lines := [],
      tower := towerOf v.t.core, olds := [], stock := 0, stocked := 0, reached := 0 }
  s.modTeam v.t.id fun t => { t with queues := t.queues ++ [op] }

/-- The operation enters its queue. -/
def Iss.enqueue (x : Iss) (w : Work) : Act := .next (x.enqueueOn x.v.s w)

/-- Changes an operation of a team. -/
def State.modOp (s : State) (team op : Nat) (g : EngOp → EngOp) : State :=
  s.modTeam team fun t => { t with queues := replaceBy (fun o => o.id == op) g t.queues }

/-- Whether the launch of a team has an outcome: it is about to complete (R329). -/
def State.isOver (s : State) (t : Team) : Bool := ((s.launch? t.launch).bind Launch.outcome).isSome

/-- The operation at the head of a queue that can go on: not held on a page, behind nothing that lives; in a launch that has
ended, only one that has begun (R329). -/
def State.engHead (s : State) (t : Team) (q : Nat) : Option EngOp :=
  match t.queue q with
  | [] => none
  | o :: _ => if o.held.isSome || s.anyLives o.after || (s.isOver t && !o.begun) then none else some o

/-! ## The end of operations (R163, R298, R302, R441) -/

/-- The number of the mule operations of a team that have not performed. -/
def Team.mules (t : Team) : Nat := (t.queue 1).length

/-- A known value for an outstanding result; with no register to write it is outstanding no more. -/
def State.finishResult (s : State) (fid : Nat) (r : Option Nat) (ws : List RegWrite) : State :=
  match r with
  | none => s
  | some r =>
    if ws = [] then { s with results := s.results.filter fun x => x.id != r }.wakeIfDone fid
    else { s with results := replaceBy (fun x => x.id == r) (fun x => { x with known := true, writes := ws }) s.results }

/-- The write of a uniform destination. -/
def uniWrite (o : Operand) (v : Nat) : List RegWrite :=
  if o.cls = .uni then [{ cls := .uni, reg := o.num.toNat, lanes := 1, vals := [(0, BitVec.ofNat 32 v)] }] else []

/-- What a waiting `cpw` or `bwbar` answers once its condition holds: the number of mule operations left, or the count of
beats applied. -/
def State.waitValue (s : State) (t : Team) (o : EngOp) : Option Nat :=
  match o.kind with
  | .cpw => if t.mules ≤ o.vals.headD 0 then some t.mules else none
  | .bwbar => if o.vals.any fun i => t.queues.any fun q => q.id == i then none else some (t.beatsApplied % 2 ^ 32)
  | _ => none

/-- The `cpw` and `bwbar` of a team that can answer do. -/
def State.answerWaits (s : State) (team : Nat) : State :=
  match s.team? team with
  | none => s
  | some t => (t.queue 7).foldl (fun s o => match s.waitValue t o with
      | some v =>
        let s := s.modTeam team fun t => { t with queues := t.queues.filter fun q => q.id != o.id }
        s.finishResult o.fid o.result (uniWrite o.enc.d v)
      | none => s) s

/-- A team whose `mma` operations have performed gives up the lease that it has ended (R282, R353). -/
def State.releaseLease (s : State) (team : Nat) : State :=
  let asks := s.fibres.any fun f => f.team == team && decide (f.waits = .lease)
  s.modTeam team fun t =>
    if t.lease = .releasing ∧ !(t.queues.any fun o => decide (o.kind = .mma)) then
      { t with lease := if asks then .waiting else .none, leaseLeft := 0 }
    else t

/-- Whether what an operation does counts as progress of its launch: stores, copies, messages and row stores (R450). -/
def EngOp.stores (o : EngOp) : Bool :=
  match o.kind with
  | .mma | .azero | .aswap | .ald | .aflag | .tld | .tcvt | .bld | .bldBc | .coll | .cpw | .bwbar => false
  | .adrain => decide (o.enc.hi2 ≠ 3)
  | _ => true

/-- An operation leaves its queue, having performed; its fibre's releases and the waits of its team look again. -/
def State.engDone (s : State) (team : Nat) (o : EngOp) (ws : List RegWrite) : State :=
  let s := s.modTeam team fun t => { t with queues := t.queues.filter fun q => q.id != o.id }
  let s := s.finishResult o.fid o.result ws
  let s := ((s.releaseLease team).answerWaits team).wakeLog
  let s := s.settle o.fid
  if o.stores then s.progressTeam team else s

/-- An operation ends at a line with a trap found after issue: it counts as performed, and its result is not written
(R441). -/
def State.engTrap (s : State) (team : Nat) (o : EngOp) (cause detail offset : Nat) : State :=
  let s := s.engDone team o []
  s.postTrap o.fid ⟨BitVec.ofNat 8 cause, 0, BitVec.ofNat 16 detail, o.lanes, o.ip, BitVec.ofNat 32 offset⟩

/-- How far a turn of an operation came: it goes on at an item and a byte of it, it has performed, it stands at a line
whose page is missing, it waits for something else, it is held at a row that finds no room in the side log or the fault filter
(R436), or it ends with a trap. -/
inductive Turn where
  | more (s : State) (pos part got : Nat)
  | done (s : State) (ws : List RegWrite)
  | miss (s : State) (m : Miss)
  | waits (s : State)
  | stuck (s : State) (va : Nat)
  | trap (s : State) (cause detail offset : Nat)

/-- Ends a turn. A missing page holds the operation at the line it has reached, once the core's filter has taken the
granule (R431, R441). -/
def State.endTurn (s0 : State) (team : Nat) (o : EngOp) (core ctx : Nat) : Turn → State
  | .more s pos part got =>
    let s := s.modOp team o.id fun o => { o with pos := pos, part := part, got := got, begun := true }
    if o.stores then s.progressTeam team else s
  | .done s ws => s.engDone team o ws
  | .miss s m => match s.gather core ctx [m] with
    | some s => s.modOp team o.id fun o => { o with held := some m.va, begun := true }
    | none => s
  | .waits _ => s0
  | .stuck s va => s.modOp team o.id fun o => { o with held := some va, begun := true, got := 1 }
  | .trap s c d off => s.engTrap team o c d off

/-! ## Accesses of an operation -/

/-- The context of an operation: its team, its launch's context, itself. -/
structure Eng where
  t : Team
  ctx : Nat
  o : EngOp
deriving DecidableEq, Repr

/-- What a run of bytes in one line meets. -/
inductive Io where
  | ok (v : Nat) (s : State)
  | stop (t : Turn)

/-- Translates a run for an operation, and counts its line once, by the tower where the team ran at issue (R130); the line is the
one it has reached (R87). -/
def Eng.reach (g : Eng) (s : State) (va : Nat) (perm : Perm) (b : Buf) (count : Bool) (k : Place → State → Io) : Io :=
  if 2 ^ 57 ≤ va then .stop (.trap s 6 0 0)
  else
    let s := s.modOp g.t.id g.o.id fun o => { o with reached := lineOf va }
    match s.translate g.t.core g.ctx va perm with
    | (.bad _ c d, s) => .stop (.trap s c d 0)
    | (.unmapped level, s) =>
      .stop (.miss s { va := granuleOf va, acc := perm.acc, level := level, plo := BitVec.ofNat 3 b.plo, ht := BitVec.ofNat 2 b.ht })
    | (.ok p, s) =>
      let line := lineOf p.key
      if p.pkg ≠ s.pkg.pkgNo ∧ g.o.queue ≠ 5 ∧ s.portHeld p.pkg (flowOf p.pa) then .stop (.waits s)
      else
      let seen := match s.team? g.t.id with
        | some t => t.queues.any fun q => q.id == g.o.id && q.lines.contains line
        | none => true
      let s := if count ∧ !seen then
          (s.countLineAt g.o.tower g.t.id p).modOp g.t.id g.o.id fun o => { o with lines := line :: o.lines }
        else s
      k p s

/-- Reads n bytes of one line, in the L1 where `l1` and the line lets it, else at home (R147). -/
def Eng.read (g : Eng) (s : State) (va n : Nat) (b : Buf) (l1 : Bool) (count : Bool := true) : Io :=
  g.reach s va .read b count fun p s =>
    let line := lineOf p.key
    let s := s.emitAccess .read false g.o.id p
    if s.lostLine line then .stop (.trap s 0x15 14 0)
    else
      let l1 := l1 && decide (p.pkg = s.pkg.pkgNo)
      let s := if l1 then s else s.writeBackAt g.t.core line
      let (v, s) := s.readSeg g.t.core line l1
        { lane := 0, key := p.key, bit := 0, nbits := 8 * n, eltBit := 0, data := 0, data2 := 0 }
      .ok v s

/-- Writes n bytes of one line. A store that does not cover a lost line meets its loss; `whole` says that the write which the run is
part of covers the line (R465). -/
def Eng.write (g : Eng) (s : State) (va n v : Nat) (b : Buf) (l1 : Bool) (count : Bool := true) (whole : Bool := false) : Io :=
  g.reach s va .write b count fun p s =>
    let line := lineOf p.key
    let s := s.emitAccess .write (decide (g.o.queue = 5)) g.o.id p
    if s.lostLine line ∧ !whole then .stop (.trap s 0x15 14 0)
    else
      let s := s.modPkg fun k => { k with lostLines := k.lostLines.filter fun q => q.2 != line }
      let l1 := l1 && decide (p.pkg = s.pkg.pkgNo)
      let s := if l1 then s else s.writeBackAt g.t.core line
      .ok 0 (s.putBits g.t.core line l1 false p.key 0 (8 * n) v)

/-- How many bytes from an offset on lie side by side in one line, all in bounds or all out (R121, R122). -/
def Buf.room (b : Buf) (o : Int) : Nat :=
  if o < 0 then (-o).toNat
  else if (b.extent : Int) ≤ o then 2 ^ 25
  else
    let line := 128 - (b.base + swizzle o.toNat b.swz) % 128
    let chunk := if b.swz = 0 then 128 else 2 ^ (3 + b.swz) - o.toNat % 2 ^ (3 + b.swz)
    min (min line chunk) (b.extent - o.toNat)

/-- The virtual address of a byte of a buffer. -/
def Buf.va (b : Buf) (o : Int) : Nat := b.base + swizzle o.toNat b.swz

/-- Whether n bytes from an offset are in bounds (R121). -/
def Buf.inb (b : Buf) (o : Int) (n : Nat) : Bool := decide (0 ≤ o) && decide (o + n ≤ b.extent)

/-! ## Items: what an operation moves, piece by piece -/

/-- A piece of an item: one access of n bytes at an offset (R274). -/
structure Piece where
  off : Int
  n : Nat
deriving DecidableEq, Repr

/-- The piece that holds byte i of an item, and the place in it. -/
def pieceAt : List Piece → Nat → Option (Piece × Nat)
  | [], _ => none
  | p :: ps, i => if i < p.n then some (p, i) else pieceAt ps (i - p.n)

/-- The bytes of an item. -/
def itemBytes (ps : List Piece) : Nat := (ps.map Piece.n).foldl (· + ·) 0

/-- How many of the n bytes left of an access, from an address on, are one unit of R145: an aligned word that lies wholly inside
the access, else one byte. -/
def unitAt (va n : Nat) : Nat := if va % 4 = 0 ∧ 4 ≤ n then 4 else 1

/-- One unit of an item (R145): with `wr` the bytes of that value are written, otherwise read into what has been got; a piece out of
bounds reads as zero and is dropped when written (R274). `fin` takes the whole item. -/
def Eng.item (g : Eng) (s : State) (b : Buf) (ps : List Piece) (wr : Option Nat) (fin : State → Nat → Turn) : Turn :=
  match pieceAt ps g.o.part with
  | none => fin s g.o.got
  | some (p, i) =>
    let n := p.n - i
    let step := fun (s : State) (n got : Nat) =>
      if itemBytes ps ≤ g.o.part + n then fin s got else Turn.more s g.o.pos (g.o.part + n) got
    if !b.inb p.off p.n then step s n g.o.got
    else
      let n := unitAt (b.va (p.off + i)) (min n (b.room (p.off + i)))
      match wr with
      | some w => match g.write s (b.va (p.off + i)) n (w / 2 ^ (8 * g.o.part) % 2 ^ (8 * n)) b true with
        | .ok _ s => step s n g.o.got
        | .stop t => t
      | none => match g.read s (b.va (p.off + i)) n b true with
        | .ok v s => step s n (g.o.got + v * 2 ^ (8 * g.o.part))
        | .stop t => t

/-! ## Row transfers (R274, R275) -/

/-- The width of an element of a format code (R233). -/
def elemWidth (code : Nat) : Nat :=
  match code with
  | 0 => 32
  | 1 | 2 => 16
  | 5 | 6 => 6
  | 7 => 4
  | _ => 8

/-- A row transfer. -/
structure Rows where
  b : Buf
  lay : Nat
  w : Nat
  q : Nat
  x : Nat
  c : Int
  e : Int
deriving DecidableEq, Repr

/-- The pieces of block m of row r. -/
def Rows.pieces (r : Rows) (row m : Nat) : List Piece :=
  let at_ : Int := ((r.x + row) * r.b.stride : Nat) + r.c
  match r.lay with
  | 0 => [⟨at_ + 32 * m, 32⟩]
  | 1 => [⟨at_ + ((4 * r.w + 1) * m : Nat), 4 * r.w + 1⟩]
  | _ => [⟨at_ + (4 * r.w * m : Nat), 4 * r.w⟩,
          ⟨r.e + ((r.x + row) * (r.b.stride / (4 * r.w)) : Nat) + r.c / (4 * r.w : Nat) + m, 1⟩]

/-- The pieces of item k: row k / q, block k % q. -/
def Rows.item (r : Rows) (k : Nat) : List Piece := r.pieces (k / r.q) (k % r.q)

/-- All the pieces. -/
def Rows.all (r : Rows) : List Piece := (List.range (64 * r.q)).flatMap r.item

/-- Whether the split layout is aligned as it must be. -/
def Rows.aligned (r : Rows) : Bool :=
  decide (r.lay ≠ 2) || (decide (r.b.stride % (4 * r.w) = 0) && decide (r.c % (4 * r.w : Nat) = 0))

/-- A block unpacked into a granule (R75, R105). -/
def unpackGran (lay w v : Nat) : Nat :=
  if lay = 0 then v % 2 ^ 256 + 0x7F * 2 ^ 256
  else packElems 8 ((List.range 32).map fun j => v / 2 ^ (w * j) % 2 ^ w) + v / 2 ^ (32 * w) % 256 * 2 ^ 256

/-- A granule packed into a block. -/
def packGran (lay w g : Nat) : Nat :=
  if lay = 0 then g % 2 ^ 256
  else packElems w ((List.range 32).map fun j => g / 2 ^ (8 * j) % 2 ^ w) + g / 2 ^ 256 % 256 * 2 ^ (32 * w)

/-- The checks at issue of an operation's pieces: `bounds` with its DETAIL, `addrrange`, `misalign` by z (R410, R442). -/
def Iss.pieceTrap (x : Iss) (b : Buf) (ps : List Piece) (detail z : Nat) : Option Act :=
  let out := fun p : Piece => b.oob = 1 && !b.inb p.off p.n
  let far := fun p : Piece => b.inb p.off p.n && (List.range p.n).any fun i => decide (2 ^ 57 ≤ b.va (p.off + i))
  let odd := fun p : Piece => decide (2 ≤ z) && b.inb p.off p.n && decide (b.va p.off % z ≠ 0)
  match ps.find? out with
  | some p => some (.trap 7 0 detail x.act (wrap 32 p.off))
  | none =>
    if ps.any far then some (.trap 6 0 0 x.act 0)
    else if ps.any odd then some (.trap 5 0 z x.act 0)
    else none

/-! ## Turns of an operation -/

/-- The context of the launch of a team. -/
def State.ctxOf (s : State) (t : Team) : Nat := ((s.launch? t.launch).map Launch.ctx).getD 0

/-- One turn of the operation at the head of a queue. -/
def State.engTurn (s : State) (team q : Nat) (f : Eng → State → Turn) : State :=
  match s.team? team with
  | none => s
  | some t => match s.engHead t q with
    | none => s
    | some o => s.endTurn team o t.core (s.ctxOf t) (f ⟨t, s.ctxOf t, o⟩ s)

end Sys2Proof.Machine
end

