-- ==== Sys2Proof/Machine/Matrix.lean ====
section
/-! DEFINITION. The matrix engine: tiles (R75, R275 to R277), the matrix operation (R106 to R109, R278 to R282), the lease
(R64, R353), accumulators and drains (R76 to R79, R110, R283 to R287), and B slices (R288 to R292). -/

namespace Sys2Proof.Machine

/-! ## Stored blocks -/

/-- The key of granule g of tile m. -/
def tileKey (m g : Nat) : Nat := 64 * m + g

/-- A granule of a tile. -/
def Team.granule (t : Team) (m g : Nat) : Nat := (SMap.get 0 t.tiles (tileKey m g)).toNat

/-- Writes a granule of a tile. -/
def State.putGranule (s : State) (team m g v : Nat) : State :=
  s.modTeam team fun t =>
    { t with
      tiles := SMap.set 0 t.tiles (tileKey m g) (BitVec.ofNat 264 v),
      bad := t.bad.filter fun u => !(u.1 == 4 && u.2 / 5 == tileKey m g) }

/-- An accumulator of +0 with its flags clear. -/
def Acc.blank : Acc := ⟨[], 0⟩

/-- An accumulator of a team. -/
def Team.acc (t : Team) (a : Nat) : Acc := SMap.get Acc.blank t.accs a

/-- Changes an accumulator. -/
def State.modAcc (s : State) (team a : Nat) (f : Acc → Acc) : State :=
  s.modTeam team fun t => { t with accs := SMap.set Acc.blank t.accs a (f (t.acc a)) }

/-- Elements of an accumulator that are written are good again: unit 4096 a + k is element k (R459, R464). -/
def State.mendAcc (s : State) (team a : Nat) (p : Nat → Bool) : State :=
  s.modTeam team fun t =>
    if t.bad = [] then t else { t with bad := t.bad.filter fun u => !(u.1 == 5 && u.2 / 4096 == a && p (u.2 % 4096)) }

/-- Element (i, j). -/
def Acc.at (a : Acc) (i j : Nat) : Nat := (SMap.get 0 a.elems (64 * i + j)).toNat

/-- The key of granule g of column c of a core's B slices. -/
def sliceKey (c g : Nat) : Nat := 248 * c + g

/-! ## The matrix operation (R106 to R109, R278 to R281) -/

/-- The parameter word of `mma`. -/
structure MmaWord where
  af : Nat
  bf : Nat
  mx : Bool
  n : Nat
  g0 : Nat
  za : Bool
deriving DecidableEq, Repr

/-- The fields of a parameter word. -/
def MmaWord.of (p : Nat) : MmaWord :=
  { af := bits p 3 0, bf := bits p 7 4, mx := bitN p 8, n := bits p 12 9 + 1, g0 := bits p 20 13, za := bitN p 21 }

/-- The pairs of R106. -/
def mmaPair (af bf : Nat) (mx : Bool) : Bool :=
  if mx then decide (3 ≤ af) && decide (af ≤ 7) && decide (3 ≤ bf) && decide (bf ≤ 7)
  else (af = 1 && bf = 1) || (af = 2 && bf = 2) || (af = 13 && bf = 13) || ((af = 3 || af = 4) && (bf = 3 || bf = 4))

/-- Whether a parameter word is valid for tile A (R279). -/
def mmaValid (p tile : Nat) : Bool :=
  let m := MmaWord.of p
  mmaPair m.af m.bf m.mx && decide (tile + m.n ≤ 16) && decide (m.g0 + m.n ≤ 248) && decide (bits p 31 22 = 0)

/-- The elements of a granule. -/
def granCount (code : Nat) : Nat := if code = 1 ∨ code = 2 then 16 else 32

/-- The value of element k of a granule in a format. -/
def granValue (code g k : Nat) : Val :=
  if code = 13 then Val.ofInteger (signed 8 (g / 2 ^ (8 * k) % 256))
  else if code = 1 ∨ code = 2 then (Fmt.ofCode code).value (g / 2 ^ (16 * k) % 2 ^ 16)
  else (Fmt.ofCode code).value (g / 2 ^ (8 * k) % 2 ^ elemWidth code)

/-- The scale byte of a granule. -/
def granScale (g : Nat) : Nat := g / 2 ^ 256 % 256

/-- The exact sum of products of a k-block, with what it marks: V and N (R108). -/
structure BlockSum where
  sum : Val
  v : Bool
  n : Bool
deriving DecidableEq, Repr

/-- A power of two applied to a value. -/
def Val.scale (v : Val) (e : Int) : Val :=
  match v with
  | .fin s m x => .fin s m (x + e)
  | v => v

/-- A product of two elements; of two integers a zero one has no sign (R109). -/
def elemProduct (ints : Bool) (a b : Val) : Val × Nat :=
  if ints && (a.isZero || b.isZero) then (.fin false 0 0, 0) else a.mul b

/-- The sum over pairs of elements, times 2^e; a scale of 0xFF makes it NaN. -/
def blockSum (ints : Bool) (ps : List (Val × Val)) (e : Int) (badScale : Bool) : BlockSum :=
  let nan := badScale || ps.any fun p => p.1.isNan || p.2.isNan
  let products := ps.map fun p => elemProduct ints p.1 p.2
  let zeroInf := products.any fun p => decide (p.2 ≠ 0)
  let infs := products.any (fun p => decide (p.1 = .inf false)) && products.any fun p => decide (p.1 = .inf true)
  let v := !badScale && (zeroInf || infs)
  let total := match products with
    | [] => Val.fin false 0 0
    | p :: rest => rest.foldl (fun (a : Val) (q : Val × Nat) => (a.add 0 q.1).1) p.1
  { sum := if nan || v then .nan false else total.scale e, v := v, n := nan }

/-- acc + s, rounded once with RNE, and its flags V, O, N in bits 0, 1 and 3 (R77, R107, R108). -/
def addBlock (acc : Nat) (b : BlockSum) : Nat × Nat :=
  let a := Fmt.f32.value acc
  let r := a.add 0 b.sum
  let out := Fmt.f32.round 0 false r.1
  let opposite := match a, b.sum with
    | .inf x, .inf y => x != y
    | _, _ => false
  let overflow := !r.1.isInf && (Fmt.f32.value out.1).isInf
  (out.1, b2n (b.v || opposite) + 2 * b2n overflow + 8 * b2n b.n)

/-- The k-blocks of one chunk: the pairs of elements of each (R106). -/
def chunkBlocks (m : MmaWord) (ga gb : Nat) : List BlockSum :=
  let size := if m.mx then 32 else if m.af = 1 ∨ m.af = 2 then 1 else 2
  (List.range (granCount m.af / size)).map fun K =>
    let ps := (List.range size).map fun k => (granValue m.af ga (size * K + k), granValue m.bf gb (size * K + k))
    if m.mx then
      blockSum false ps ((granScale ga : Int) - 127 + ((granScale gb : Int) - 127)) (granScale ga = 255 || granScale gb = 255)
    else blockSum (m.af = 13) ps 0 false

/-- One cell: its new element and the flags it raises (R107). -/
def cell (m : MmaWord) (acc : Nat) (ga gb : Nat → Nat) : Nat × Nat :=
  ((List.range m.n).flatMap fun k => chunkBlocks m (ga k) (gb k)).foldl
    (fun a b => let r := addBlock a.1 b; (r.1, a.2 ||| r.2)) (if m.za then 0 else acc, 0)

/-- `mma` performs (R280). -/
def Eng.mma (g : Eng) (s : State) : Turn :=
  let m := MmaWord.of (g.o.vals.headD 0)
  let tile := g.o.enc.a.num.toNat
  let a := g.o.enc.d.num.toNat
  let slices := (s.core g.t.core).bslices
  let old := g.t.acc a
  let cells := (List.range 4096).map fun k =>
    cell m (old.at (k / 64) (k % 64)) (fun i => g.t.granule (tile + i) (k / 64))
      (fun i => (SMap.get 0 slices (sliceKey (k % 64) (m.g0 + i))).toNat)
  let elems := SMap.setLanes 0 [] 0 (List.range 4096) fun k => BitVec.ofNat 32 (cells.getD k (0, 0)).1
  let flags := BitVec.ofNat 4 (orFlags (cells.map Prod.snd))
  .done ((s.modAcc g.t.id a fun x => ⟨elems, x.flags ||| flags⟩).mendAcc g.t.id a fun _ => true) []

/-! ## The lease (R64, R282, R353) -/

/-- The teams of a core that wait for its engine. -/
def State.leaseWaiters (s : State) (core : Nat) : List Team := s.teams.filter fun t => t.core == core && decide (t.lease = .waiting)

/-- The fibre requests the engine for its team and parks until the grant. DESIGN CHOICE (log 84): a team that is Releasing, for which
R353 has no such event, stays so, and is Waiting once its release has ended. -/
def Iss.requestLease (x : Iss) : Act :=
  x.park (x.v.s.modTeam x.v.t.id fun t => { t with lease := if t.lease = .releasing then .releasing else .waiting }) .parked .lease

/-- LEASE (R64, R282). -/
def execLease (e : Enc) (s : State) : Host.Outcome State Fault Refusal :=
  issue (.lease e) e needsLease (fun x => if x.v.t.lease = .held then .next x.v.s else x.requestLease) s

/-- UNLEASE (R282). -/
def execUnlease (e : Enc) (s : State) : Host.Outcome State Fault Refusal :=
  issue (.unlease e) e needsLease (fun x =>
    if x.v.t.lease = .held then
      .next ((x.v.s.modTeam x.v.t.id fun t => { t with lease := .releasing }).releaseLease x.v.t.id)
    else .next x.v.s) s

/-- One count of the lease is spent: a team whose count is gone passes the engine once its `mma` operations have performed when another
team of the core waits, and keeps it with a fresh count otherwise (R353). -/
def State.spendLease (s : State) (t : Team) (len : Nat) : State :=
  let waited := (s.leaseWaiters t.core).any fun u => u.id != t.id
  s.modTeam t.id fun t =>
    if 1 < t.leaseLeft then { t with leaseLeft := t.leaseLeft - 1 }
    else if waited then { t with lease := .releasing, leaseLeft := 0 }
    else { t with leaseLeft := len }

/-- MMA (R64, R279, R280, R282). -/
def execMma (e : Enc) (s : State) : Host.Outcome State Fault Refusal :=
  issue (.mma e) e needsLease (fun x =>
    let p := x.u32 3
    if !mmaValid p e.a.num.toNat then x.badValue 3 x.act
    else x.intoQueue 2 fun x =>
      if x.v.t.lease ≠ .held then x.requestLease
      else .next (x.enqueueOn (x.v.s.spendLease x.v.t x.v.kernel.llen) { Work.of .mma 2 [p] with returns := true })) s

/-- The number of a team's slots by which the arbiter takes turns: the lowest it occupies. -/
def Team.slotNo (t : Team) : Nat := t.coreSlots.foldl min 16

/-- The team that a free engine goes to: the first waiting one after the last holder (R353). -/
def State.leaseNext (s : State) (core : Nat) : Option Team :=
  if s.teams.any fun t => t.core == core && (decide (t.lease = .held) || decide (t.lease = .releasing)) then none
  else
    let last := (s.core core).arbLast
    ((List.range 16).map fun k => (last + 1 + k) % 16).findSome? fun n =>
      (s.leaseWaiters core).find? fun t => t.slotNo == n

/-- LEASE_GRANT (R64, R353). -/
def execLeaseGrant (core : Nat) (s : State) : Host.Outcome State Fault Refusal :=
  match s.leaseNext core with
  | none => .next s
  | some t =>
    let len := ((s.launch? t.launch).map fun l => (l.kernelAt t.kernel).llen).getD 1
    let s := s.modTeam t.id fun t => { t with lease := .held, leaseLeft := if t.leaseLeft = 0 then len else t.leaseLeft }
    let s := s.modCore core fun c => { c with arbLast := t.slotNo }
    .next ((s.fibres.filter fun f => f.team == t.id && decide (f.waits = .lease)).foldl (fun s f => s.wake f.id) s)

/-! ## Accumulators (R283, R284) -/

/-- AZERO (R284). -/
def execAzero (e : Enc) (s : State) : Host.Outcome State Fault Refusal :=
  issue (.azero e) e needsLease (fun x => x.intoQueue 2 fun x => x.enqueue { Work.of .azero 2 [] with returns := true }) s

/-- ASWAP (R284). -/
def execAswap (e : Enc) (s : State) : Host.Outcome State Fault Refusal :=
  issue (.aswap e) e needsLease (fun x => x.intoQueue 2 fun x => x.enqueue { Work.of .aswap 2 [] with returns := true }) s

/-- AFLAG (R284). -/
def execAflag (e : Enc) (s : State) : Host.Outcome State Fault Refusal :=
  issue (.aflag e) e needsLease (fun x => x.intoQueue 2 fun x => x.enqueue { Work.of .aflag 2 [] with returns := true }) s

/-- `azero` performs. -/
def Eng.azero (g : Eng) (s : State) : Turn :=
  let d := g.o.enc.d.num.toNat
  .done ((s.modAcc g.t.id d fun x => ⟨[], if g.o.enc.mod = 1 then 0 else x.flags⟩).mendAcc g.t.id d fun _ => true) []

/-- `aswap` performs. -/
def Eng.aswap (g : Eng) (s : State) : Turn :=
  let d := g.o.enc.d.num.toNat
  let a := g.o.enc.a.num.toNat
  .done ((s.modAcc g.t.id d fun _ => g.t.acc a).modAcc g.t.id a fun _ => g.t.acc d) []

/-- `aflag` performs. -/
def Eng.aflag (g : Eng) (s : State) : Turn :=
  .done s (uniWrite g.o.enc.d ((g.t.acc g.o.enc.a.num.toNat).flags.toNat + 256 * b2n g.t.restored))

/-! ## Images of accumulators (R287) -/

/-- The word k of an image: elements, then the flag word. -/
def imagePiece (b : Buf) (x k : Nat) (c : Int) : Piece := ⟨(x * b.stride : Nat) + c + (4 * k : Nat), 4⟩

/-- An `ald` or `ast` issues. -/
def Iss.image (x : Iss) (kind : EngKind) (perm : Perm) (detail : Nat) (returns : Bool) : Act :=
  x.intoQueue 2 fun x =>
    let b := x.buf 2
    match x.bufTrap 2 b [perm] with
    | some t => t
    | none =>
      let i := x.u32 3
      let c := x.i32 4
      match x.pieceTrap b ((List.range 4097).map fun k => imagePiece b i k c) detail 4 with
      | some t => t
      | none =>
        if ((i * b.stride : Nat) + c) % 4 ≠ 0 then .trap 5 0 4 x.act 0
        else x.enqueue { Work.of kind 2 [i, x.src 4 .u32 0] with recA := x.recBits 2, returns := returns }

/-- ALD (R287). -/
def execAld (e : Enc) (s : State) : Host.Outcome State Fault Refusal :=
  issue (.ald e) e needsLease (fun x => x.image .ald .read 1 true) s

/-- AST (R287). -/
def execAst (e : Enc) (s : State) : Host.Outcome State Fault Refusal :=
  issue (.ast e) e needsLease (fun x => x.image .ast .write 2 false) s

/-- The record and the first two values of an operation: index and offset. -/
def EngOp.buf (o : EngOp) : Buf := Buf.of o.recA.toNat

/-- Value n of an operation. -/
def EngOp.val (o : EngOp) (n : Nat) : Nat := o.vals.getD n 0

/-- Goes on with the next item, or has performed. -/
def Eng.nextItem (g : Eng) (s : State) (count : Nat) (ws : List RegWrite) : Turn :=
  if g.o.pos + 1 < count then .more s (g.o.pos + 1) 0 0 else .done s ws

/-- `ald` goes on with a word. -/
def Eng.ald (g : Eng) (s : State) : Turn :=
  let a := g.o.enc.d.num.toNat
  let k := g.o.pos
  g.item s g.o.buf [imagePiece g.o.buf (g.o.val 0) k (signed 32 (g.o.val 1))] none fun s v =>
    let s := s.modAcc g.t.id a fun x =>
      if k < 4096 then { x with elems := SMap.set 0 x.elems k (BitVec.ofNat 32 v) } else { x with flags := BitVec.ofNat 4 v }
    g.nextItem (s.mendAcc g.t.id a fun i => i == k) 4097 []

/-- `ast` goes on with a word. -/
def Eng.ast (g : Eng) (s : State) : Turn :=
  let x := g.t.acc g.o.enc.d.num.toNat
  let k := g.o.pos
  let v := if k < 4096 then x.at (k / 64) (k % 64) else x.flags.toNat
  g.item s g.o.buf [imagePiece g.o.buf (g.o.val 0) k (signed 32 (g.o.val 1))] (some v) fun s _ => g.nextItem s 4097 []

/-! ## Drains (R110, R285, R286) -/

/-- An element in a drain's format that has no scale: its bits, and whether a finite one was clamped. -/
def drainElem (code mode w : Nat) : Nat × Bool :=
  if code = 0 then (w, false)
  else
    let f := Fmt.ofCode code
    match f.round mode (match Fmt.f32.value w with | .inf _ => false | _ => true) (Fmt.f32.value w) with
    | (b, fl) => (b, match Fmt.f32.value w with
      | .nan _ => false
      | _ => bitN fl 2)

/-- The two blocks of row i of an MX drain. -/
def drainBlock (a : Acc) (code mode i h : Nat) : MxBlock :=
  mxQuantise (Fmt.ofCode code) mode ((List.range 32).map fun j => Fmt.f32.value (a.at i (32 * h + j)))

/-- The granule of a quantised block. -/
def MxBlock.granule (b : MxBlock) : Nat := packElems 8 b.elems + b.scale * 2 ^ 256

/-- Whether a destination takes MX blocks. -/
def drainMx (dst code : Nat) : Bool := dst = 1 || dst = 2 || (dst = 3 && decide (3 ≤ code))

/-- Whether the drain clamps a finite element (S and SD). -/
def drainClamps (a : Acc) (dst code mode : Nat) : Bool :=
  if drainMx dst code then
    (List.range 128).any fun k => bitN (drainBlock a code mode (k / 2) (k % 2)).flags 2
  else (List.range 4096).any fun k => (drainElem code mode (a.at (k / 64) (k % 64))).2

/-- Whether the drain writes a scale of 0xFF (NB). -/
def drainNan (a : Acc) (dst code mode : Nat) : Bool :=
  drainMx dst code && (List.range 128).any fun k => (drainBlock a code mode (k / 2) (k % 2)).bad

/-- The row transfer of an operation with format and layout in MOD. -/
def EngOp.rows (o : EngOp) (lay w q : Nat) : Rows :=
  { b := o.buf, lay := lay, w := w, q := q, x := o.val 0, c := signed 32 (o.val 1), e := signed 32 (o.val 2) }

/-- The items of a drain to memory: elements, or blocks. -/
def drainItem (b : Buf) (dst code x : Nat) (c e : Int) (k : Nat) : List Piece :=
  if dst = 0 then
    let z := elemWidth code / 8
    [⟨((x + k / 64) * b.stride : Nat) + c + (z * (k % 64) : Nat), z⟩]
  else Rows.item { b := b, lay := dst, w := elemWidth code, q := 2, x := x, c := c, e := e } k

/-- The number of items of a drain to memory. -/
def drainItems (dst : Nat) : Nat := if dst = 0 then 4096 else 128

/-- The rows of which at least one access is out of bounds (OOBR). -/
def drainOob (b : Buf) (dst code x : Nat) (c e : Int) : Nat :=
  let per := drainItems dst / 64
  ((List.range 64).filter fun i => (List.range per).any fun k =>
    (drainItem b dst code x c e (per * i + k)).any fun p => !b.inb p.off p.n).length

/-- ADRAIN (R285). -/
def execAdrain (e : Enc) (s : State) : Host.Outcome State Fault Refusal :=
  issue (.adrain e) e needsLease (fun x => x.intoQueue 2 fun x =>
    let dst := e.hi2
    let code := e.lo4
    let returns := e.d.cls = .uni ∨ dst = 3 ∨ e.ext3 % 2 = 1
    let work := { Work.of .adrain 2 [] with mode := x.mode, returns := decide returns }
    if dst = 3 then x.enqueue work
    else
      let b := x.buf 3
      let i := x.u32 4
      let off := x.src 5 .u32 0
      let soff := if dst = 2 then (x.v.reg .uni (e.e.num.toNat + 1) 0).toNat else 0
      let rows : Rows :=
        { b := b, lay := dst, w := elemWidth code, q := 2, x := i, c := signed 32 off, e := signed 32 soff }
      if dst = 2 ∧ !rows.aligned then x.badValue 4 x.act
      else match x.bufTrap 3 b [.write] with
        | some t => t
        | none =>
          let z := if dst = 0 then elemWidth code / 8 else 1
          match x.pieceTrap b ((List.range (drainItems dst)).flatMap
              (drainItem b dst code i (signed 32 off) (signed 32 soff))) 2 z with
          | some t => t
          | none => x.enqueue { work with vals := [i, off, soff], recA := x.recBits 3 }) s

/-- A drain has made its stores: S, the status word, and `.z` (R285, R286). -/
def Eng.drainEnd (g : Eng) (s : State) : Turn :=
  let o := g.o
  let a := o.enc.a.num.toNat
  let x := g.t.acc a
  let dst := o.enc.hi2
  let code := o.enc.lo4
  let sd := drainClamps x dst code o.mode
  let flags : BitVec 4 := if sd then x.flags ||| 4 else x.flags
  let oob := if dst = 3 then 0 else drainOob o.buf dst code (o.val 0) (signed 32 (o.val 1)) (signed 32 (o.val 2))
  let word := flags.toNat + 16 * b2n sd + 32 * b2n (drainNan x dst code o.mode) + 256 * oob
  .done (s.modAcc g.t.id a fun y => ⟨if o.enc.ext3 % 2 = 1 then [] else y.elems, flags⟩) (uniWrite o.enc.d word)

/-- A drain to tiles (R285). -/
def Eng.drainTiles (g : Eng) (s : State) : State :=
  let o := g.o
  let x := g.t.acc o.enc.a.num.toNat
  let code := o.enc.lo4
  let tile := o.enc.b.num.toNat
  if 3 ≤ code then
    (List.range 128).foldl (fun s k =>
      s.putGranule g.t.id (tile + k % 2) (k / 2) (drainBlock x code o.mode (k / 2) (k % 2)).granule) s
  else
    (List.range 256).foldl (fun s k =>
      let i := k / 4
      let q := k % 4
      let es := (List.range 16).map fun j => (drainElem code o.mode (x.at i (16 * q + j))).1
      s.putGranule g.t.id (tile + q) i (packElems 16 es + 0x7F * 2 ^ 256)) s

/-- `adrain` goes on with an item. -/
def Eng.adrain (g : Eng) (s : State) : Turn :=
  let o := g.o
  let x := g.t.acc o.enc.a.num.toNat
  let dst := o.enc.hi2
  let code := o.enc.lo4
  let k := o.pos
  if dst = 3 then g.drainEnd (g.drainTiles s)
  else
    let v := if dst = 0 then (drainElem code o.mode (x.at (k / 64) (k % 64))).1
      else packGran dst (elemWidth code) (drainBlock x code o.mode (k / 2) (k % 2)).granule
    g.item s o.buf (drainItem o.buf dst code (o.val 0) (signed 32 (o.val 1)) (signed 32 (o.val 2)) k) (some v) fun s _ =>
      if k + 1 < drainItems dst then .more s (k + 1) 0 0 else g.drainEnd s

/-! ## Tiles (R275 to R277) -/

/-- The row transfer that an instruction names in A, B, C and E. -/
def Iss.rows (x : Iss) (q : Nat) : Rows :=
  { b := x.buf 2, lay := x.e.hi2, w := elemWidth x.e.lo4, q := q, x := x.u32 3, c := x.i32 4,
    e := if x.e.hi2 = 2 then x.i32 5 else 0 }

/-- The operand values of a row transfer, as they enter the queue. -/
def Iss.rowVals (x : Iss) : List Nat := [x.u32 3, x.src 4 .u32 0, if x.e.hi2 = 2 then x.src 5 .u32 0 else 0]

/-- The checks of a row transfer at issue (R274, R442). -/
def Iss.rowTrap (x : Iss) (q : Nat) (perm : Perm) (detail : Nat) : Option Act :=
  let r := x.rows q
  if !r.aligned then some (x.badValue 4 x.act)
  else match x.bufTrap 2 r.b [perm] with
    | some t => some t
    | none => x.pieceTrap r.b r.all detail 1

/-- TLD (R276). -/
def execTld (e : Enc) (s : State) : Host.Outcome State Fault Refusal :=
  issue (.tld e) e needsLease (fun x => x.intoQueue 2 fun x =>
    match x.rowTrap 1 .read 1 with
    | some t => t
    | none => x.enqueue { Work.of .tld 2 x.rowVals with recA := x.recBits 2, returns := true }) s

/-- TST (R276). -/
def execTst (e : Enc) (s : State) : Host.Outcome State Fault Refusal :=
  issue (.tst e) e needsLease (fun x => x.intoQueue 2 fun x =>
    match x.rowTrap 1 .write 2 with
    | some t => t
    | none => x.enqueue { Work.of .tst 2 x.rowVals with recA := x.recBits 2 }) s

/-- TCVT (R277). -/
def execTcvt (e : Enc) (s : State) : Host.Outcome State Fault Refusal :=
  issue (.tcvt e) e needsLease (fun x => x.intoQueue 2 fun x =>
    x.enqueue { Work.of .tcvt 2 [] with mode := x.mode, returns := true }) s

/-- `tld` goes on with a row. -/
def Eng.tld (g : Eng) (s : State) : Turn :=
  let r := g.o.rows g.o.enc.hi2 (elemWidth g.o.enc.lo4) 1
  g.item s r.b (r.item g.o.pos) none fun s v =>
    g.nextItem (s.putGranule g.t.id g.o.enc.d.num.toNat g.o.pos (unpackGran r.lay r.w v)) 64 []

/-- `tst` goes on with a row. -/
def Eng.tst (g : Eng) (s : State) : Turn :=
  let r := g.o.rows g.o.enc.hi2 (elemWidth g.o.enc.lo4) 1
  g.item s r.b (r.item g.o.pos) (some (packGran r.lay r.w (g.t.granule g.o.enc.d.num.toNat g.o.pos))) fun s _ =>
    g.nextItem s 64 []

/-- The 32 exact values that row i of a re-quantised tile is made of (R277). -/
def tcvtValues (t : Team) (tile src i : Nat) : List Val :=
  if src ≤ 2 then
    (List.range 32).map fun j => granValue src (t.granule (tile + j / 16) i) (j % 16)
  else
    let gr := t.granule tile i
    (List.range 32).map fun j => mxValue (Fmt.ofCode src) (granScale gr) (gr / 2 ^ (8 * j) % 2 ^ elemWidth src)

/-- `tcvt` performs. -/
def Eng.tcvt (g : Eng) (s : State) : Turn :=
  let o := g.o
  let grans := (List.range 64).map fun i =>
    (mxQuantise (Fmt.ofCode o.enc.ty) o.mode (tcvtValues g.t o.enc.a.num.toNat o.enc.var i)).granule
  .done ((List.range 64).foldl (fun s i => s.putGranule g.t.id o.enc.d.num.toNat i (grans.getD i 0)) s) []

/-! ## The matrix queue (R163) -/

/-- Whether a tile holds an uncorrectable unit: unit 5 k + p is part p of granule k (R459). -/
def Team.badTile (t : Team) (m : Nat) : Bool := t.bad.any fun u => u.1 == 4 && u.2 / 320 == m

/-- Whether an accumulator does. -/
def Team.badAcc (t : Team) (a : Nat) : Bool := t.bad.any fun u => u.1 == 5 && u.2 / 4096 == a

/-- The code of an uncorrectable unit that an operation reads: tiles, accumulators, the B granules of its chunks (R463). -/
def Eng.badCode (g : Eng) (s : State) : Option Nat :=
  let e := g.o.enc
  let d := e.d.num.toNat
  let a := e.a.num.toNat
  let tile := fun n first => (List.range n).any fun i => g.t.badTile (first + i)
  match g.o.kind with
  | .mma =>
    let m := MmaWord.of (g.o.vals.headD 0)
    if tile m.n a then some 4
    else if !m.za && g.t.badAcc d then some 5
    else if (s.core g.t.core).bad.any fun k => decide (m.g0 ≤ k % 248) && decide (k % 248 < m.g0 + m.n) then some 7
    else none
  | .tcvt => if tile (if e.var ≤ 2 then 2 else 1) a then some 4 else none
  | .tst => if tile 1 d then some 4 else none
  | .adrain => if g.t.badAcc a then some 5 else none
  | .ast => if g.t.badAcc d then some 5 else none
  | .aswap => if g.t.badAcc a || g.t.badAcc d then some 5 else none
  | _ => none

/-- A turn of a matrix operation on data without an error. -/
def Eng.matrixGood (g : Eng) (s : State) : Turn :=
  match g.o.kind with
  | .mma => g.mma s
  | .azero => g.azero s
  | .aswap => g.aswap s
  | .aflag => g.aflag s
  | .ald => g.ald s
  | .ast => g.ast s
  | .adrain => g.adrain s
  | .tld => g.tld s
  | .tst => g.tst s
  | _ => g.tcvt s

/-- A turn of a matrix operation: an uncorrectable unit that it would read ends it with `dataerr` (R441, R463). -/
def Eng.matrix (g : Eng) (s : State) : Turn :=
  match g.badCode s with
  | some c => .trap s 0x15 c 0
  | none => g.matrixGood s

/-- MATRIX_OPERATION (R79, R163, R441). -/
def execMatrixOperation (team : Nat) (s : State) : Host.Outcome State Fault Refusal := .next (s.engTurn team 2 Eng.matrix)

/-! ## B slices (R288 to R292) -/

/-- The parameter of `bld` and `bld.bc`: first granule, granules per column, layers (R290). -/
structure BldWord where
  g0 : Nat
  ng : Nat
  lm : Nat
deriving DecidableEq, Repr

/-- The fields of the parameter. -/
def BldWord.of (p : Nat) : BldWord := ⟨bits p 7 0, bits p 15 8, bits p 21 16⟩

/-- Whether a parameter keeps R290. -/
def bldValid (p : Nat) (bc : Bool) : Bool :=
  let w := BldWord.of p
  decide (w.g0 ≤ 247) && decide (1 ≤ w.ng) && decide (w.ng ≤ 248) && decide (w.g0 + w.ng ≤ 248) &&
    (if bc then decide (w.lm ≠ 0) else decide (w.lm = 0)) && decide (bits p 31 22 = 0)

/-- A `bld` or `bld.bc` issues. -/
def Iss.bslice (x : Iss) (kind : EngKind) : Act :=
  x.intoQueue 3 fun x =>
    let p := x.u32 1
    if !bldValid p (kind = .bldBc) then x.badValue 1 x.act
    else match x.rowTrap (BldWord.of p).ng .read 1 with
      | some t => t
      | none => x.enqueue { Work.of kind 3 (x.rowVals ++ [p]) with recA := x.recBits 2 }

/-- BLD (R291). -/
def execBld (e : Enc) (s : State) : Host.Outcome State Fault Refusal := issue (.bld e) e partialMask (fun x => x.bslice .bld) s

/-- BLD_BC (R291). -/
def execBldBc (e : Enc) (s : State) : Host.Outcome State Fault Refusal :=
  issue (.bldBc e) e needsEntries (fun x => x.bslice .bldBc) s

/-- Writes a B granule of a core. -/
def State.putSlice (s : State) (core col gran : Nat) (v : BitVec 264) : State :=
  s.modCore core fun c =>
    { c with bslices := SMap.set 0 c.bslices (sliceKey col gran) v, bad := c.bad.filter fun k => k != sliceKey col gran }

/-- Whether a granule of `bld.bc` has been read and waits for a beat: its bytes are all there. -/
def EngOp.beatReady (o : EngOp) : Bool :=
  let p := BldWord.of (o.val 3)
  let r := o.rows o.enc.hi2 (elemWidth o.enc.lo4) p.ng
  decide (o.kind = .bldBc) && decide (o.pos < 64 * p.ng) && decide (itemBytes (r.item o.pos) ≤ o.part)

/-- A turn of `bld` or `bld.bc`: one run of a block is read; `bld` writes the granule, `bld.bc` keeps it for a beat. -/
def Eng.bld (g : Eng) (s : State) : Turn :=
  let p := BldWord.of (g.o.val 3)
  let r := g.o.rows g.o.enc.hi2 (elemWidth g.o.enc.lo4) p.ng
  let k := g.o.pos
  if g.o.kind = .bldBc then
    if g.o.beatReady ∨ 64 * p.ng ≤ k then .waits s
    else g.item s r.b (r.item k) none fun s v => .more s k (itemBytes (r.item k)) v
  else
    g.item s r.b (r.item k) none fun s v =>
      g.nextItem (s.putSlice g.t.core (k / p.ng) (p.g0 + k % p.ng) (BitVec.ofNat 264 (unpackGran r.lay r.w v))) (64 * p.ng) []

/-- BSLICE_OPERATION (R291). -/
def execBsliceOperation (team : Nat) (s : State) : Host.Outcome State Fault Refusal := .next (s.engTurn team 3 Eng.bld)

end Sys2Proof.Machine
end

