-- ==== Sys2Proof/Machine/Channel.lean ====
section
/-! DEFINITION. The stack window and the Bellwether channel of a tower (R66, R136, R159 to R161, R291, R299 to R302, R472), and
the sleep of a layer (R33, R161). -/

namespace Sys2Proof.Machine

/-! ## The grant of a launch (R338) -/

/-- The granted range of the window: lo and hi in bytes. -/
def Launch.grant (l : Launch) : Nat × Nat := (64 * l.field 0x38 2, 64 * l.field 0x3A 2)

/-! ## Instructions (R299 to R302) -/

/-- The bytes of a lane. -/
def stackBytes (e : Enc) : Nat := 4 * 2 ^ e.mod.toNat

/-- BWST (R163, R300): behind every earlier release at tower scope or wider, those in the side log among them (R438). -/
def execBwst (e : Enc) (s : State) : Host.Outcome State Fault Refusal :=
  issue (.bwst e) e needsEntries (fun x => x.intoQueue 4 fun x =>
    let o := x.u32 2
    let z := stackBytes e
    if o % 64 ≠ 0 ∨ o < x.v.l.grant.1 ∨ x.v.l.grant.2 < o + 32 * z then .trap 14 2 2 x.act 0
    else if (x.v.s.pendingOps x.v.f.id).any fun p => p.order.releases && decide (2 ≤ p.scope) then .hold x.v.s
    else if (x.v.s.ownLog x.v.f.id).any fun p => p.order.releases && decide (2 ≤ p.scope) then
      .hold (x.v.s.leave x.v.f.id .held .log)
    else x.enqueue { Work.of .bwst 4 [o] with laneVals := (lanesOf x.act).map fun L => (L, x.dData (z / 4) L) }) s

/-- BWLD (R149, R301): behind every earlier acquire at tower scope or wider, the answer of a firmware call among them (R328). -/
def execBwld (e : Enc) (s : State) : Host.Outcome State Fault Refusal :=
  issue (.bwld e) e partialMask (fun x =>
    if ((x.v.s.pendingOps x.v.f.id).any fun p => p.order.acquires && decide (2 ≤ p.scope)) || x.v.s.calls.any fun c => c.fid == x.v.f.id then
      .hold x.v.s
    else
      let z := stackBytes e
      let at_ := fun L => x.u32 2 + x.src 3 .u32 L
      let out := x.lanes fun L => decide (at_ L < x.v.l.grant.1) || decide (x.v.l.grant.2 < at_ L + z)
      let odd := x.lanes fun L => decide (at_ L % z ≠ 0)
      if out ≠ 0 then .trap 14 2 2 out 0
      else if odd ≠ 0 then .trap 5 0 z odd 0
      else
        let y := x.v.s.layer (dieOf x.v.t.core)
        let w := y.window
        let bad := x.lanes fun L => y.bad.any fun u => decide (at_ L < 8 * u + 8) && decide (8 * u < at_ L + z)
        if bad ≠ 0 then .trap 0x15 0 8 bad 0
        else x.variable (x.writesTo e.d (z / 4) x.act fun L => spadRead w (at_ L) z)) s

/-- BWBAR (R160, R302). -/
def execBwbar (e : Enc) (s : State) : Host.Outcome State Fault Refusal :=
  issue (.bwbar e) e partialMask (fun x =>
    let ids := (x.v.t.queues.filter fun o => decide (o.kind = .bwst) || decide (o.kind = .bldBc)).map EngOp.id
    .next ((x.enqueueOn x.v.s { Work.of .bwbar 7 ids with returns := true }).answerWaits x.v.t.id)) s

/-- BWSLOT (R302). -/
def execBwslot (e : Enc) (s : State) : Host.Outcome State Fault Refusal :=
  issue (.bwslot e) e partialMask (fun x =>
    x.variable (x.writesTo e.d 1 x.act fun _ => x.v.t.entries.getD (x.u32 2) (2 ^ 32 - 1))) s

/-- BWSLOT_N (R302). -/
def execBwslotN (e : Enc) (s : State) : Host.Outcome State Fault Refusal :=
  issue (.bwslotN e) e partialMask (fun x => x.variable (x.writesTo e.d 1 x.act fun _ => x.v.t.entries.length)) s

/-! ## Beats (R291, R300) -/

/-- Beat k of a `bwst`: 64 bytes, a word enabled for each live lane. -/
def EngOp.stackBeat (o : EngOp) (t : Team) (k : Nat) : Beat :=
  let z := stackBytes o.enc
  let per := 64 / z
  let data := packElems (8 * z) ((List.range per).map fun i => (SMap.get 0 o.laneVals (per * k + i)).toNat)
  let words := (List.range 16).map fun w => b2n (o.lanes.getLsbD (per * k + 4 * w / z))
  { id := o.id, team := t.id, core := t.core, ctx := 0, op := o.id, off := o.val 0 + 64 * k, data := BitVec.ofNat 512 data,
    enable := BitVec.ofNat 16 (packElems 1 words), gran := none, key := none, entry := 0, bad := false, resends := 0 }

/-- The beat of a granule that a `bld.bc` has read. -/
def EngOp.granBeat (o : EngOp) (t : Team) (ctx : Nat) : Beat :=
  let p := BldWord.of (o.val 3)
  let r := o.rows o.enc.hi2 (elemWidth o.enc.lo4) p.ng
  { id := o.id, team := t.id, core := t.core, ctx := ctx, op := o.id, off := 0, data := 0, enable := 0,
    gran := some (o.pos / p.ng, p.g0 + o.pos % p.ng, BitVec.ofNat 6 p.lm, BitVec.ofNat 264 (unpackGran r.lay r.w o.got)),
    key := none, entry := 0, bad := false, resends := 0 }

/-- The number of beats of an operation. -/
def EngOp.beats (o : EngOp) : Nat :=
  if o.kind = .bwst then stackBytes o.enc / 2 else 64 * (BldWord.of (o.val 3)).ng

/-- The next beat of a team, from its oldest operation that sends beats, once that operation may (R159, R163, R291). -/
def State.nextBeat (s : State) (t : Team) : Option (EngOp × Beat) :=
  match t.queues.find? fun o => decide (o.kind = .bwst) || decide (o.kind = .bldBc) with
  | none => none
  | some o => match s.engHead t o.queue with
    | none => none
    | some h =>
      if h.id ≠ o.id ∨ o.beats ≤ o.pos then none
      else if o.kind = .bwst then some (o, o.stackBeat t o.pos)
      else if o.beatReady then some (o, o.granBeat t (s.ctxOf t)) else none

/-! ## Applying beats (R159, R161, R291) -/

/-- Writes the enabled words of a beat into 64 bytes of a window. -/
def beatBytes (m : SMap Byte) (b : Beat) : SMap Byte :=
  SMap.setLanes 0 m b.off ((List.range 64).filter fun i => b.enable.getLsbD (i / 4)) fun i => BitVec.ofNat 8 (b.data.toNat / 2 ^ (8 * i))

/-- The uncorrectable units of a window that a beat leaves: those that it does not write whole (R464). -/
def beatMends (bad : List Nat) (b : Beat) : List Nat :=
  bad.filter fun u => !(decide (b.off ≤ 8 * u) && decide (8 * u + 8 ≤ b.off + 64) && b.enable.getLsbD ((8 * u - b.off) / 4) &&
    b.enable.getLsbD ((8 * u - b.off) / 4 + 1))

/-- Whether a core position of a die is active in the core map (R15). -/
def Package.isActive (p : Package) (die pos : Nat) : Bool := (p.coreMap.getD die CoreMapEntry.boot).active.getLsbD pos

/-- Whether a core belongs to a context: all its teams are of it, or, without a team, the last it admitted was (R291). -/
def State.belongs (s : State) (core ctx : Nat) : Bool :=
  let ts := s.teams.filter fun t => t.core == core
  if ts = [] then (s.core core).lastCtx = some ctx else ts.all fun t => s.ctxOf t == ctx

/-- The dies of a tower that are awake. -/
def State.awakeDies (s : State) (tower : Nat) : List Nat :=
  ((List.range 6).map fun l => 6 * tower + l).filter fun d => !(s.layer d).asleep

/-- Applies one beat on every awake layer and in the shadow (R159). -/
def State.applyBeat (s : State) (tower : Nat) (b : Beat) : State :=
  match b.gran with
  | some (col, g, lm, v) =>
    (s.awakeDies tower).foldl (fun s d =>
      let core := 96 * d + b.core % 96
      if lm.getLsbD (d % 6) ∧ s.pkg.isActive d (b.core % 96) ∧ s.belongs core b.ctx then s.putSlice core col g v else s) s
  | none =>
    let s := (s.awakeDies tower).foldl (fun s d => s.modLayer d fun y => { y with window := beatBytes y.window b, bad := beatMends y.bad b }) s
    s.modTower tower fun y => { y with shadow := beatBytes y.shadow b, bad := beatMends y.bad b }

/-- A beat has been applied: its team counts it, and its operation has performed with its last beat. -/
def State.beatApplied (s : State) (tower : Nat) (b : Beat) : State :=
  let s := s.modTeam b.team fun t => { t with beatsApplied := t.beatsApplied + 1 }
  match s.team? b.team with
  | none => s
  | some t => match t.queues.find? fun o => o.id == b.op with
    | none => s
    | some o =>
      if o.beats ≤ o.pos ∧ !((s.tower tower).beats.any fun c => c.op == b.op && decide (c.key ≠ none)) then s.engDone t.id o []
      else s

/-- Whether a beat has been transmitted and is held. -/
def Beat.isHeld (b : Beat) : Bool := b.key.isSome

/-- Applies the beats transmitted before this cycle, up to the first bad one, in key order (R159, R472); `fuel` bounds their number. -/
def State.applyHeld (s : State) (tower : Nat) : Nat → State
  | 0 => s
  | fuel + 1 => match (s.tower tower).beats.find? Beat.isHeld with
    | none => s
    | some b =>
      if b.bad then s
      else
        let s := s.modTower tower fun y => { y with beats := y.beats.erase b }
        ((s.applyBeat tower b).beatApplied tower b).applyHeld tower fuel

/-! ## Transmission (R20, R66, R159, R472) -/

/-- What the turn of an entry carries: the resend of a bad beat, or a new beat of an operation or of a restore. -/
inductive Carry where
  | resend (b : Beat)
  | beat (o : Option EngOp) (b : Beat)
deriving DecidableEq, Repr

/-- Whether an entry's turn is now: its position in the frame, its channel after those that have passed (R20, R159). -/
def State.entryTurn (s : State) (tower entry : Nat) : Bool :=
  let y := s.tower tower
  decide (entry < 512) && decide (s.now % 64 = entry % 64) && !y.removed.getLsbD (entry / 64) &&
    (match y.lastKey with
    | some (c, ch) => decide (c < s.now) || decide (ch < entry / 64)
    | none => true)

/-- What an entry carries now (R66, R136, R472): while a bad beat waits for its second or later resend, only its team's
entries carry anything; 1,024 beats can be held. -/
def State.carries (s : State) (tower entry : Nat) : Option Carry :=
  let y := s.tower tower
  if !s.entryTurn tower entry then none
  else
    let team := SMap.get 0 y.slots entry
    let fresh : Option Carry :=
      if 1024 ≤ (y.beats.filter Beat.isHeld).length then none
      else if team = 0 then (y.beats.find? fun b => !b.isHeld).map fun b => .beat none b
      else (s.team? team).bind fun t => (s.nextBeat t).map fun p => .beat (some p.1) p.2
    match y.beats.find? Beat.bad with
    | none => fresh
    | some b => if b.team = team then some (.resend b) else if 1 ≤ b.resends then none else fresh

/-- A beat goes out in the turn of an entry, arriving clean or bad; the dies apply it in the next cycle (R159, R472). -/
def State.transmit (s : State) (tower entry : Nat) (c : Carry) (bad : Bool) : State :=
  let key := (s.now, entry / 64)
  let s := s.modTower tower fun y => { y with lastKey := some key }
  match c with
  | .resend b =>
    s.modTower tower fun y =>
      { y with beats := replaceBy (fun c => c == b) (fun c => { c with bad := bad, resends := c.resends + 1 }) y.beats }
  | .beat o b =>
    let sent := { b with key := some key, entry := entry, bad := bad }
    let s := s.modTower tower fun y => { y with beats := y.beats.erase b ++ [sent] }
    match o with
    | some o => s.modOp b.team o.id fun o => { o with pos := o.pos + 1, part := 0, got := 0, begun := true }
    | none => s

/-- BELLWETHER_BEAT (R159, R300). -/
def execBellwetherBeat (tower entry : Nat) (s : State) : Host.Outcome State Fault Refusal :=
  match s.carries tower entry with
  | some c => .next (s.transmit tower entry c false)
  | none => .next s

/-- The entries of a tower that carry a beat now, in channel order. -/
def State.entriesNow (s : State) (tower : Nat) : List Nat :=
  ((List.range 8).map fun c => 64 * c + s.now % 64).filter fun e => (s.carries tower e).isSome

/-- BEAT_CRC_ERROR (R472): the next beat of the tower arrives bad. -/
def execBeatCrcError (tower : Nat) (s : State) : Host.Outcome State Fault Refusal :=
  match s.entriesNow tower with
  | [] => .next s
  | e :: _ => match s.carries tower e with
    | some c => .next (s.transmit tower e c true)
    | none => .next s

/-! ## Sleep and wake (R33, R161) -/

/-- LAYER_SLEEP (R33): a layer with no team resident on it. -/
def execLayerSleep (die : Nat) (s : State) : Host.Outcome State Fault Refusal :=
  if die < 24 ∧ (s.teams.all fun t => dieOf t.core != die) then .next (s.modLayer die fun y => { y with asleep := true })
  else .next s

/-- LAYER_WAKE (R161): the window is the shadow's, and every B slice of the layer zero. -/
def execLayerWake (die : Nat) (s : State) : Host.Outcome State Fault Refusal :=
  if (s.layer die).asleep then
    let t := s.tower (die / 6)
    let s := s.modLayer die fun y => { y with asleep := false, window := t.shadow, bad := t.bad }
    .next { s with cores := s.cores.map fun c => if dieOf c.id = die then { c with bslices := [], bad := [] } else c }
  else .next s

end Sys2Proof.Machine
end

