-- ==== Sys2Proof/Machine/Copy.lean ====
section
/-! DEFINITION. The Mule: copies between memory and scratchpads, copies into circular buffers (R293 to R298, R442). -/

namespace Sys2Proof.Machine

/-! ## Endpoints (R293) -/

/-- An endpoint of a copy: a buffer, or the scratchpad of a team. -/
inductive End where
  | glob (b : Buf)
  | spad (team : Nat)
deriving DecidableEq, Repr

/-- The shape of a copy: bytes of a row, rows, the pitches of the source and the destination, the list of indices. -/
structure Shape where
  n : Nat
  rows : Nat
  sp : Nat
  dp : Nat
  list : Nat
deriving DecidableEq, Repr

/-- The kind of an endpoint: 0 global, 1 own scratchpad, 2 cluster. -/
def copyKind (e : Enc) (dst : Bool) : Nat := if dst then e.mod.toNat % 4 else e.mod.toNat / 4 % 4

/-- The rank that a cluster endpoint names is bad (R252). -/
def Iss.badRank (x : Iss) (k kind : Nat) : Bool := decide (kind = 2) && decide (x.v.ranks ≤ x.u32 k)

/-- The team of an endpoint in a scratchpad. -/
def Iss.endTeam (x : Iss) (k kind : Nat) : Team := if kind = 2 then x.v.rankTeam (x.u32 k) else x.v.t

/-- The shape in B: a byte count for `cp`, else a quadruple. -/
def Iss.shape (x : Iss) (kind : EngKind) : Shape :=
  if kind = .cp then ⟨x.u32 3, 1, 0, 0, 0⟩
  else
    let w := fun k => (x.v.reg .uni (x.e.b.num.toNat + k) 0).toNat
    if kind = .cp2d then ⟨w 0, w 1, w 2, w 3, 0⟩ else ⟨w 0, w 1, w 0, w 0, w 2⟩

/-- Whether the shape is out of range (R295, R296). -/
def Iss.badShape (x : Iss) (kind : EngKind) : Bool :=
  let h := x.shape kind
  if kind = .cp then decide (2 ^ 24 < h.n)
  else
    let rows := decide (h.n < 1) || decide (65536 < h.n) || decide (h.rows < 1) || decide (65536 < h.rows)
    if kind = .cp2d then rows
    else rows || decide (h.list % 4 ≠ 0) || decide ((x.v.reg .uni (x.e.b.num.toNat + 3) 0).toNat ≠ 0)

/-- The first byte of a range that lies outside [0, size), counted from the range's start: rows of n bytes at a pitch from an
offset. -/
def firstOut (size : Nat) (off : Int) (n rows pitch : Nat) : Option Nat :=
  (List.range rows).findSome? fun r =>
    let o := off + (r * pitch : Nat)
    if n = 0 then none
    else if o < 0 then some (r * pitch)
    else if (size : Int) < o + n then some (r * pitch + (size - o.toNat))
    else none

/-- A scratchpad endpoint outside its team's scratchpad (R294). -/
def Iss.spadOut (x : Iss) (k kind : Nat) (off : Int) (n rows pitch : Nat) : Option Act :=
  if kind = 0 then none
  else (firstOut (x.endTeam k kind).scratch off n rows pitch).map fun o => .trap 8 0 kind x.act o

/-- Whether an in-bounds byte of a global range reaches 2^57: a swizzle keeps a byte in its line, so the last 256 bytes in bounds of
each row tell (R122, R123). -/
def farRange (b : Buf) (off : Int) (n rows pitch : Nat) : Bool :=
  (List.range rows).any fun r =>
    let o := off + (r * pitch : Nat)
    (List.range 256).any fun i =>
      let p := min (o + n) b.extent - 1 - i
      decide (max o 0 ≤ p) && decide (2 ^ 57 ≤ b.va p)

/-! ## Issue -/

/-- The first trap of a list of checks. -/
def firstTrap : List (Option Act) → Option Act
  | [] => none
  | some t :: _ => some t
  | none :: rest => firstTrap rest

/-- A copy between two endpoints issues (R293 to R296, R410). -/
def Iss.copy (x : Iss) (kind : EngKind) : Act :=
  x.intoQueue 1 fun x =>
    let dk := copyKind x.e true
    let sk := copyKind x.e false
    let h := x.shape kind
    let c := x.i32 4
    let e := x.i32 5
    let listed := decide (kind = .cpg) || decide (kind = .cps)
    if x.badRank 1 dk then x.badValue 1 x.act
    else if x.badRank 2 sk then x.badValue 2 x.act
    else if x.badShape kind then x.badValue 3 x.act
    else
      let d := x.buf 1
      let a := x.buf 2
      let traps := firstTrap [
        if dk = 0 then x.bufTrap 1 d [.write] else none,
        if sk = 0 then x.bufTrap 2 a [.read] else none,
        x.spadOut 1 dk c h.n h.rows h.dp,
        x.spadOut 2 sk e h.n h.rows h.sp,
        if listed then (firstOut x.v.t.scratch h.list (4 * h.rows) 1 0).map fun o => .trap 8 0 1 x.act o else none,
        if !listed && ((dk = 0 && farRange d c h.n h.rows h.dp) || (sk = 0 && farRange a e h.n h.rows h.sp)) then
          some (.trap 6 0 0 x.act 0)
        else none]
      match traps with
      | some t => t
      | none =>
        x.enqueue { Work.of kind 1 [(x.endTeam 1 dk).id, (x.endTeam 2 sk).id, x.src 4 .u32 0, x.src 5 .u32 0, h.n, h.rows, h.sp,
            h.dp, h.list] with
          recD := if dk = 0 then x.recBits 1 else 0, recA := if sk = 0 then x.recBits 2 else 0 }

/-- CP (R293, R295). -/
def execCp (e : Enc) (s : State) : Host.Outcome State Fault Refusal := issue (.cp e) e partialMask (fun x => x.copy .cp) s

/-- CPG (R293, R296). -/
def execCpg (e : Enc) (s : State) : Host.Outcome State Fault Refusal := issue (.cpg e) e partialMask (fun x => x.copy .cpg) s

/-- CPS (R293, R296). -/
def execCps (e : Enc) (s : State) : Host.Outcome State Fault Refusal := issue (.cps e) e partialMask (fun x => x.copy .cps) s

/-- CP2D (R293, R295). -/
def execCp2d (e : Enc) (s : State) : Host.Outcome State Fault Refusal := issue (.cp2d e) e partialMask (fun x => x.copy .cp2d) s

/-- CPCB (R297): the buffer is tested after every other operand. -/
def Iss.cpcb (x : Iss) : Act :=
  x.intoQueue 1 fun x =>
    let b := x.u32 1
    let n := x.u32 3
    let e := x.i32 5
    let r := x.buf 2
    if 15 < b then x.badValue 1 x.act
    else
      let c := x.v.t.cbuf b
      let traps := firstTrap [
        x.bufTrap 2 r [.read],
        if farRange r e (min n (2 ^ 24)) 1 0 then some (.trap 6 0 0 x.act 0) else none,
        if c.ns = 0 then some (.trap 13 0 3 x.act 0) else none,
        if n < 1 ∨ 16 * c.sz < n then some (x.badValue 3 x.act) else none]
      match traps with
      | some t => t
      | none => x.enqueue { Work.of .cpcb 1 [b, 0, 0, x.src 5 .u32 0, n, 1, 0, 0, 0] with recA := x.recBits 2 }

/-- CPCB (R297). -/
def execCpcb (e : Enc) (s : State) : Host.Outcome State Fault Refusal := issue (.cpcb e) e partialMask Iss.cpcb s

/-- CPW (R298). -/
def execCpw (e : Enc) (s : State) : Host.Outcome State Fault Refusal :=
  issue (.cpw e) e partialMask (fun x =>
    let l := x.u32 2
    if 15 < l then x.badValue 2 x.act
    else .next ((x.enqueueOn x.v.s { Work.of .cpw 7 [l] with returns := true }).answerWaits x.v.t.id)) s

/-! ## Performance (R294 to R297, R441, R442) -/

/-- The destination of an operation. -/
def EngOp.dst (o : EngOp) (t : Team) : End :=
  match o.kind with
  | .cpcb => .spad t.id
  | .put | .putsig => .glob (Buf.of o.recD.toNat)
  | .get => if o.enc.mod.toNat % 2 = 0 then .glob (Buf.of o.recD.toNat) else .spad (o.val 0)
  | _ => if copyKind o.enc true = 0 then .glob (Buf.of o.recD.toNat) else .spad (o.val 0)

/-- The source of an operation. -/
def EngOp.src (o : EngOp) : End :=
  match o.kind with
  | .cpcb | .get => .glob o.buf
  | .put | .putsig => if o.enc.mod.toNat % 2 = 0 then .glob o.buf else .spad (o.val 1)
  | _ => if copyKind o.enc false = 0 then .glob o.buf else .spad (o.val 1)

/-- The offset of the source of row r, with the index of the row. -/
def EngOp.srcOff (o : EngOp) (r idx : Nat) : Int :=
  signed 32 (o.val 3) + (if o.kind = .cpg then (idx * o.buf.stride : Nat) else (r * o.val 6 : Nat))

/-- The offset of the destination of row r. -/
def EngOp.dstOff (o : EngOp) (r idx : Nat) : Int :=
  signed 32 (o.val 2) + (if o.kind = .cps then (idx * (Buf.of o.recD.toNat).stride : Nat) else (r * o.val 7 : Nat))

/-- How many bytes of an endpoint can be moved at once from an offset. -/
def End.room (e : End) (o : Int) : Nat :=
  match e with
  | .glob b => b.room o
  | .spad _ => 2 ^ 25

/-- Reads n bytes of an endpoint. -/
def Eng.readEnd (g : Eng) (s : State) (e : End) (o : Int) (n : Nat) (l1 : Bool) : Io :=
  match e with
  | .glob b => if b.inb o 1 then g.read s (b.va o) n b l1 (decide (g.o.queue = 1)) else .ok 0 s
  | .spad t =>
    if ((s.team? t).map fun t => t.badWords o.toNat n).getD false then .stop (.trap s 0x15 6 0)
    else .ok (((s.team? t).map fun t => spadRead t.spad o.toNat n).getD 0) s

/-- Writes n bytes of an endpoint; `row` is the range of offsets that the copy's write of them covers. -/
def Eng.writeEnd (g : Eng) (s : State) (e : End) (o : Int) (n v : Nat) (l1 : Bool) (row : Int × Nat) : Io :=
  match e with
  | .glob b =>
    let line := o - (b.va o % 128 : Nat)
    let whole := decide (row.1 ≤ line) && decide (line + 128 ≤ row.1 + row.2) && b.inb line 128
    if b.inb o 1 then g.write s (b.va o) n v b l1 (decide (g.o.queue = 1)) whole else .ok 0 s
  | .spad t =>
    if ((s.team? t).map fun t => t.partWords o.toNat n).getD false then .stop (.trap s 0x15 6 0)
    else .ok 0 (s.spadStore t o.toNat n v)

/-- The first byte of a row that a faulting record puts out of bounds (R442). -/
def End.outAt (e : End) (o : Int) (n : Nat) : Option Nat :=
  match e with
  | .glob b =>
    if b.oob ≠ 1 ∨ n = 0 then none
    else if o < 0 ∨ (b.extent : Int) ≤ o then some 0
    else if (b.extent : Int) < o + n then some (b.extent - o.toNat)
    else none
  | .spad _ => none

/-- The bounds fault of rows from one to another: OFFSET counts within the range (R409, R442). -/
def Eng.outRows (g : Eng) (from_ to_ idx : Nat) : Option Nat :=
  let o := g.o
  let rows := (List.range (to_ - from_)).map fun k => from_ + k
  let look := fun (e : End) (off : Nat → Int) (pitch : Nat) =>
    rows.findSome? fun r => (e.outAt (off r) (o.val 4)).map fun i => r * pitch + i
  match look (o.dst g.t) (fun r => o.dstOff r idx) (o.val 7) with
  | some i => some i
  | none => look o.src (fun r => o.srcOff r idx) (o.val 6)

/-- Where a virtual address of the operation's context lies, if it is mapped. -/
def Eng.placeAt (g : Eng) (s : State) (va : Nat) : Option Place :=
  match (s.translate g.t.core g.ctx va .any).1 with
  | .ok p => some p
  | _ => none

/-- Its storage. -/
def Eng.keyOf (g : Eng) (s : State) (va : Nat) : Option Nat := (g.placeAt s va).map Place.key

/-- The place of byte o of an endpoint: its storage, or its offset in the scratchpad. -/
def Eng.place (g : Eng) (s : State) (e : End) (o : Int) : Nat :=
  match e with
  | .glob b => (g.keyOf s (b.va o)).getD (2 ^ 64 + b.va o)
  | .spad _ => o.toNat

/-- The storage of the in-bounds bytes of rows: its stretches, each within an aligned 4 KiB, which every view keeps in one piece (R127). -/
def Eng.stretches (g : Eng) (s : State) (b : Buf) (off : Int) (n rows pitch : Nat) : List (Nat × Nat) :=
  (List.range rows).flatMap fun r =>
    let first := (max 0 (off + (r * pitch : Nat))).toNat
    let last := min (max 0 (off + (r * pitch : Nat) + n)).toNat b.extent
    if last ≤ first then []
    else
      let a := lineOf (b.base + first)
      let z := lineOf (b.base + last - 1) + 128
      (List.range ((z - 1) / 2 ^ 12 - a / 2 ^ 12 + 1)).filterMap fun i =>
        let lo := if i = 0 then a else (a / 2 ^ 12 + i) * 2 ^ 12
        let hi := min z ((a / 2 ^ 12 + i + 1) * 2 ^ 12)
        (g.keyOf s lo).map fun k => (k, hi - lo)

/-- Whether the source and the destination of a `cp`, `cp2d`, `put`, `putsig` or `get` may overlap (R295, R309): a line of
storage is in both, or a byte of one scratchpad. -/
def Eng.overlaps (g : Eng) (s : State) : Bool :=
  let o := g.o
  let top := fun (pitch : Nat) => (((o.val 5 - 1) * pitch + o.val 4 : Nat) : Int)
  let meets := fun (a b : Int) => decide (a < b + top (o.val 7)) && decide (b < a + top (o.val 6))
  decide (o.kind ≠ .cpg ∧ o.kind ≠ .cps ∧ o.kind ≠ .cpcb) &&
    match o.src, o.dst g.t with
    | .spad a, .spad b => decide (a = b) && meets (signed 32 (o.val 3)) (signed 32 (o.val 2))
    | .glob a, .glob b =>
      let ss := g.stretches s a (signed 32 (o.val 3)) (o.val 4) (o.val 5) (o.val 6)
      let ds := g.stretches s b (signed 32 (o.val 2)) (o.val 4) (o.val 5) (o.val 7)
      ss.any fun p => ds.any fun q => decide (p.1 < q.1 + q.2) && decide (q.1 < p.1 + p.2)
    | _, _ => false

/-- The value that a source byte had before the copy, or has. -/
def Eng.sourceByte (g : Eng) (s : State) (r i : Nat) : Option Byte :=
  let o := g.o.srcOff r 0 + i
  match SMap.get 0 g.o.olds (g.place s g.o.src o) with
  | v + 1 => some (BitVec.ofNat 8 v)
  | 0 => match g.readEnd s g.o.src o 1 (decide (g.o.enc.sc = 0)) with
    | .ok v _ => some (BitVec.ofNat 8 v)
    | .stop _ => none

/-- What a copy writes of k bytes of row r, byte `part` on, read as v: where the copy overlaps itself, each byte is the value read, the
source byte's value before the copy, or any value that the copy writes. Which one is a free choice for each byte (R295; log 16). -/
def Eng.mixed (g : Eng) (s : State) (r part k v : Nat) : Nat :=
  if !g.overlaps s then v
  else
    leN ((List.range k).map fun (i : Nat) =>
      let read := BitVec.ofNat 8 (v / 2 ^ (8 * i))
      let other := match s.pick (295 + 512 * i) % 3 with
        | 0 => some read
        | 1 => g.sourceByte s r (part + i)
        | _ => g.sourceByte s (s.pick (295 + 512 * (4 + i)) % g.o.val 5) (s.pick (295 + 512 * (8 + i)) % g.o.val 4)
      other.getD read)

/-- Notes what the destination bytes of a run held before a copy that overlaps itself writes them. -/
def Eng.noted (g : Eng) (s : State) (d : Int) (k : Nat) (l1 : Bool) : State :=
  if !g.overlaps s then s
  else
    let v := match g.readEnd s (g.o.dst g.t) d k l1 with
      | .ok v _ => v
      | .stop _ => 0
    s.modOp g.t.id g.o.id fun p =>
      { p with olds := (List.range k).foldl (fun m (i : Nat) =>
          let a := g.place s (g.o.dst g.t) (d + i)
          if SMap.get 0 m a = 0 then SMap.set 0 m a (v / 2 ^ (8 * i) % 256 + 1) else m) p.olds }

/-- Whether an operation reads a list. -/
def EngOp.listed (o : EngOp) : Bool := decide (o.kind = .cpg) || decide (o.kind = .cps)

/-- Whether a waiting `cpcb` finds no free slot (R297). -/
def EngOp.lacksSlot (o : EngOp) (t : Team) : Bool :=
  decide (o.kind = .cpcb) && decide (o.val 8 = 0) && decide ((t.cbuf (o.val 0)).free = 0)

/-- A copy has moved its last byte; one into a circular buffer fills its slot, and a `putsig` goes on to its signal. -/
def Eng.copyEnd (g : Eng) (s : State) : Turn :=
  match g.o.kind with
  | .cpcb => .done (s.modCb g.t.id (g.o.val 0) fun c => c.fill (g.o.val 1)) []
  | .putsig => .more s 1 0 0
  | _ => .done s []

/-- How many of n bytes from an offset of an endpoint on are one unit of R145. -/
def End.unit (e : End) (o : Int) (n : Nat) : Nat :=
  match e with
  | .glob b => unitAt (b.va o) (min n (b.room o))
  | .spad _ => unitAt o.toNat n

/-- A turn of a copy that has bytes in stock writes one unit of them (R145); with the last byte of the last row it ends. -/
def Eng.copyOut (g : Eng) (s : State) (idx : Nat) : Turn :=
  let o := g.o
  let n := o.val 4
  let r := o.pos
  let l1 := decide (o.enc.sc = 0)
  let dst := o.dst g.t
  let row := o.dstOff r idx
  let k := dst.unit (row + o.part) (min o.stocked (n - o.part))
  match g.writeEnd (g.noted s (row + o.part) k l1) dst (row + o.part) k (g.mixed s r o.part k (o.stock % 2 ^ (8 * k))) l1 (row, n) with
  | .stop t => t
  | .ok _ s =>
    let s := s.modOp g.t.id o.id fun p => { p with stock := o.stock / 2 ^ (8 * k), stocked := o.stocked - k }
    if o.part + k < n then .more s r (o.part + k) idx
    else if r + 1 < o.val 5 then .more s (r + 1) 0 0
    else g.copyEnd s

/-- A turn of a copy that has nothing in stock reads a run of bytes that lies in one line of the source and one of the destination
(R133). -/
def Eng.copyIn (g : Eng) (s : State) (idx : Nat) : Turn :=
  let o := g.o
  let so := o.srcOff o.pos idx + o.part
  let k := min (o.val 4 - o.part) (min (o.src.room so) ((o.dst g.t).room (o.dstOff o.pos idx + o.part)))
  match g.readEnd s o.src so k (decide (o.enc.sc = 0)) with
  | .stop t => t
  | .ok v s => .more (s.modOp g.t.id o.id fun p => { p with stock := v, stocked := k }) o.pos o.part idx

/-- A turn of a copy: its bounds before any access, the claim of a slot, then a read of a run or a write of one of its units. -/
def Eng.copy (g : Eng) (s : State) : Turn :=
  let o := g.o
  let n := o.val 4
  let r := o.pos
  let fresh := o.part = 0 ∧ o.stocked = 0
  let idx := if o.listed then (if fresh then spadRead g.t.spad (o.val 8 + 4 * r) 4 else o.got) else 0
  let out := if o.listed then (if fresh then g.outRows r (r + 1) idx else none)
    else if o.begun then none else g.outRows 0 (o.val 5) 0
  match out with
  | some i => .trap s 7 4 i
  | none =>
    if o.kind = .cpcb ∧ o.val 8 = 0 then
      let c := g.t.cbuf (o.val 0)
      if c.free = 0 then .waits s
      else
        let s := s.modCb g.t.id (o.val 0) CBuf.claim
        .more (s.modOp g.t.id o.id fun p =>
          { p with vals := [o.val 0, c.wp, c.offset c.wp, o.val 3, n, 1, 0, 0, 1] }) 0 0 0
    else if n = 0 then g.copyEnd s
    else if o.stocked = 0 then g.copyIn s idx
    else g.copyOut s idx

/-- MULE_COPY (R133, R163, R294). -/
def execMuleCopy (team : Nat) (s : State) : Host.Outcome State Fault Refusal := .next (s.engTurn team 1 Eng.copy)

end Sys2Proof.Machine
end

