-- ==== Sys2Proof/Machine/Message.lean ====
section
/-! DEFINITION. Active messages, puts and gets, appends, the waits on signals and collectives as instructions, and the msg queue
(R303 to R317, R364). -/

namespace Sys2Proof.Machine

/-! ## Active messages (R306, R307) -/

/-- The target word of a core of this package (R306). -/
def State.targetWord (s : State) (core : Nat) : Nat := core % 96 + dieOf core * 2 ^ 7 + s.pkg.pkgNo * 2 ^ 12

/-- Whether a target word names no core. -/
def State.badTarget (s : State) (t : Nat) : Bool := decide (95 < bits t 6 0) || decide (23 < bits t 11 7) || !s.pkg.pool.contains (bits t 18 12)

/-- AM (R306). -/
def execAm (e : Enc) (s : State) : Host.Outcome State Fault Refusal :=
  issue (.am e) e noStep3 (fun x => x.intoQueue 5 fun x =>
    let t := x.u32 2
    let h := x.u32 3
    let n := x.u32 5
    let c := e.c.num.toNat
    if x.v.s.badTarget t then x.badValue 2 x.act
    else if x.v.l.handlers.length ≤ h then x.badValue 3 x.act
    else if x.v.f.allot < c + n then x.badValue 4 x.act
    else if 16 < n then x.badValue 5 x.act
    else if x.badRegs .uni c n ≠ 0 then .trap 0x15 0 2 (x.badRegs .uni c n) 0
    else x.enqueue (Work.of .am 5 ([t, h, n] ++ (List.range n).map fun k => (x.v.reg .uni (c + k) 0).toNat))) s

/-- The core that a message is delivered to: the one named, or the lowest active one of its die (R307). -/
def State.deliveryCore (s : State) (core : Nat) : Nat :=
  let die := dieOf core
  if s.pkg.isActive die (core % 96) then core
  else 96 * die + ((List.range 96).find? fun c => s.pkg.isActive die c).getD (core % 96)

/-- Whether a team waits in the handler queue of a core: a handler team that has not started (R307). -/
def QTeam.inHandlerQueue (q : QTeam) (core : Nat) : Bool :=
  decide (q.level = .core core) && decide (q.restore = none) && (match q.origin with
    | .handler _ => true
    | _ => false)

/-- The messages that a core's handler queue holds. -/
def State.handlerCount (s : State) (core : Nat) : Nat := (s.qteams.filter fun q => q.inHandlerQueue core).length

/-- Whether the handler queue of a core has room, messages on their way to it counted (R307). -/
def State.handlerRoom (s : State) (core : Nat) : Bool :=
  decide (s.handlerCount core + (s.msgs.filter fun m => s.deliveryCore m.core == core).length < 64)

/-- An `am` performs, a release over the earlier operations of its queue: at die scope or wider the L1 is written back (R118, R308). The
message leaves, once the handler queue has room; one to another package leaves this one, ordered by its core (R361; log 8). -/
def Eng.am (g : Eng) (s : State) : Turn :=
  let t := g.o.val 0
  let core := 96 * bits t 11 7 + bits t 6 0
  let s := if g.o.enc.sc = 0 then s else s.writeBackAll g.t.core
  if bits t 18 12 ≠ s.pkg.pkgNo then
    if s.portHeld (bits t 18 12) (bits t 6 0 % 64) then .waits s
    else .done (s.emit .message false (bits t 18 12) g.o.id (0, 0, 0) (bits t 6 0) s.freeSpec s.freePayload) []
  else if !s.handlerRoom (s.deliveryCore core) then .waits s
  else
    let (id, s) := s.fresh
    let m : AmMsg :=
      { id := id, core := core, launch := g.t.launch, handler := g.o.val 1,
        payload := (List.range (g.o.val 2)).map fun k => BitVec.ofNat 32 (g.o.val (3 + k)),
        sender := BitVec.ofNat 32 (s.targetWord g.t.core), fibre := g.o.fid }
    .done ({ s with msgs := s.msgs ++ [m] }.modLaunch g.t.launch fun l => { l with spawned := l.spawned + 1 }) []

/-! ## Put, put with signal, get (R305, R309, R310) -/

/-- A one-sided copy issues; `putsig` reads its shape from a quadruple. -/
def Iss.oneSided (x : Iss) (kind : EngKind) : Act :=
  x.intoQueue 5 fun x =>
    let spad := x.e.mod.toNat % 2
    let dk := if kind = .get then spad else 0
    let sk := if kind = .get then 0 else spad
    let w := fun k => (x.v.reg .uni (x.e.b.num.toNat + k) 0).toNat
    let n := if kind = .putsig then w 0 else x.u32 3
    let d := x.buf 1
    let a := x.buf 2
    let k := w 1
    let badSig := decide (kind = .putsig) && (decide (k % 4 ≠ 0) || decide (d.extent < k + 4) || decide (w 3 ≠ 0))
    if 2 ^ 24 < n ∨ badSig then x.badValue 3 x.act
    else
      let traps := firstTrap [
        if dk = 0 then x.bufTrap 1 d (if kind = .putsig then [.write, .atomic] else [.write]) else none,
        if sk = 0 then x.bufTrap 2 a [.read] else none,
        x.spadOut 1 dk (x.i32 4) n 1 0,
        x.spadOut 2 sk (x.i32 5) n 1 0,
        if (dk = 0 && farRange d (x.i32 4) n 1 0) || (sk = 0 && farRange a (x.i32 5) n 1 0) ||
            (decide (kind = .putsig) && decide (2 ^ 57 ≤ d.va k)) then some (.trap 6 0 0 x.act 0) else none,
        if kind = .putsig ∧ d.va k % 4 ≠ 0 then some (.trap 5 0 4 x.act 0) else none]
      match traps with
      | some t => t
      | none =>
        x.enqueue { Work.of kind 5 [x.v.t.id, x.v.t.id, x.src 4 .u32 0, x.src 5 .u32 0, n, 1, 0, 0, 0, k,
            if kind = .putsig then w 2 else 0] with
          recD := if dk = 0 then x.recBits 1 else 0, recA := if sk = 0 then x.recBits 2 else 0 }

/-- PUT (R309). -/
def execPut (e : Enc) (s : State) : Host.Outcome State Fault Refusal := issue (.put e) e noStep3 (fun x => x.oneSided .put) s

/-- PUTSIG (R310). -/
def execPutsig (e : Enc) (s : State) : Host.Outcome State Fault Refusal := issue (.putsig e) e noStep3 (fun x => x.oneSided .putsig) s

/-- GET (R309). -/
def execGet (e : Enc) (s : State) : Host.Outcome State Fault Refusal := issue (.get e) e noStep3 (fun x => x.oneSided .get) s

/-- A read-modify-write of the 4-byte word at the start of n bytes, by an engine at its home: the n bytes found, of which the
new word is made (R147); `tag` is a release at core scope, which sends a promotion tag (R153). -/
def Eng.rmw (g : Eng) (s : State) (va n : Nat) (b : Buf) (f : Nat → Nat) (tag : Bool := false) : Io :=
  g.reach s va .atomic b false fun p s =>
    let line := lineOf p.key
    let s := s.emitAccess (if g.o.kind = .app then .rmw else .signal) false g.o.id p
    if s.lostLine line then .stop (.trap s 0x15 14 0)
    else
      let s := (s.writeBackAt g.t.core line).dropLine g.t.core line
      let (v, s) := s.homeRead p.key n
      let s := if f v = v % 2 ^ 32 then s else s.homeWrite p.key 4 (f v)
      .ok v (if tag ∧ p.pkg = s.pkg.pkgNo then s.addTag line (s.bankOf p) g.t.core else s)

/-- A `putsig` whose data writes are all acknowledged adds its increment to the counter, as a release at its scope over every earlier
operation of its queue (R118, R165, R310, R364). -/
def Eng.signal (g : Eng) (s : State) : Turn :=
  if g.o.kind = .putsig ∧ g.o.pos = 1 then
    let b := Buf.of g.o.recD.toNat
    let s := if g.o.enc.sc = 0 then s else s.writeBackAll g.t.core
    match g.rmw s (b.va (g.o.val 9)) 4 b (fun v => (v + g.o.val 10) % 2 ^ 32) (decide (g.o.enc.sc = 0)) with
    | .ok _ s => .done s []
    | .stop t => t
  else .waits s

/-- PUTSIG_SIGNAL (R364): the signal of the msg operation of that name. -/
def execPutsigSignal (op : Nat) (s : State) : Host.Outcome State Fault Refusal :=
  match s.teams.find? fun t => t.queues.any fun o => o.id == op with
  | some t => if (s.engHead t 5).any fun o => o.id == op then .next (s.engTurn t.id 5 Eng.signal) else .next s
  | none => .next s

/-! ## Append (R312 to R314) -/

/-- The bytes of a row. -/
def appRow (e : Enc) : Nat := 16 * (e.mod.toNat + 1)

/-- The offsets of a lane: of its list's header and of its source row. -/
def Iss.appOffs (x : Iss) (L : Nat) : Nat × Nat :=
  (x.src 3 .u32 L * (x.buf 2).stride, x.src 5 .u32 L * (x.buf 4).stride)

/-- The lines of a range for the translation at issue. -/
def rangeLines (b : Buf) (lane off n : Nat) : List (Nat × Seg) :=
  let first := lineOf (b.base + off)
  let last := lineOf (b.base + off + n - 1)
  (List.range ((last - first) / 128 + 1)).map fun k =>
    (first + 128 * k, { lane := lane, key := 0, bit := 0, nbits := 8, eltBit := 0, data := 0, data2 := 0 })

/-- APP (R313): the checks and translations before anything leaves; then the operation enters the msg queue. -/
def Iss.app (x : Iss) : Act :=
  x.intoQueue 5 fun x =>
    let la := x.buf 2
    let sr := x.buf 4
    let n := appRow x.e
    match firstTrap [x.bufTrap 2 la [.atomic, .write] true, x.bufTrap 4 sr [.read] true] with
    | some t => t
    | none =>
      let hout := x.lanes fun L => decide (la.extent < (x.appOffs L).1 + 64)
      let sout := x.lanes fun L => decide (sr.extent < (x.appOffs L).2 + n)
      let lost := hout ||| sout
      let inl := fun L => !lost.getLsbD L
      let far := x.lanes fun L => inl L && (decide (2 ^ 57 < la.base + (x.appOffs L).1 + 64) || decide (2 ^ 57 < sr.base + (x.appOffs L).2 + n))
      let oddH := x.lanes fun L => decide ((x.appOffs L).1 % 64 ≠ 0)
      let oddS := x.lanes fun L => decide ((x.appOffs L).2 % 16 ≠ 0)
      let first := fun (m : Mask) (g : Nat → Nat) => wrap 32 (g ((lanesOf m).headD 0) : Nat)
      if la.oob = 1 ∧ hout ≠ 0 then .trap 7 0 3 hout (first hout fun L => (x.appOffs L).1)
      else if sr.oob = 1 ∧ sout ≠ 0 then .trap 7 0 1 sout (first sout fun L => (x.appOffs L).2)
      else if far ≠ 0 then .trap 6 0 0 far 0
      else if oddH ≠ 0 then .trap 5 0 64 oddH 0
      else if oddS ≠ 0 then .trap 5 0 16 oddS 0
      else
        let ls := (lanesOf x.act).filter inl
        let heads := gatherLines (ls.flatMap fun L => rangeLines la L (x.appOffs L).1 64)
        let rows := gatherLines (ls.flatMap fun L => rangeLines sr L (x.appOffs L).2 n)
        let (ht, s) := x.v.s.translateLines x.v.t.core x.v.l.ctx .atomic heads
        let (rt, s) := s.translateLines x.v.t.core x.v.l.ctx .read rows
        let ht := x.v.s.behindLog x.v.f.id x.v.l.ctx ht
        let rt := x.v.s.behindLog x.v.f.id x.v.l.ctx rt
        match worstWalk ((List.range 32).flatMap fun L => (lineFailures ht ++ lineFailures rt).filter fun p => p.1 == L) with
        | some (m, c, d) => .fails s c d m
        | none =>
          let misses := lineMisses ht Perm.atomic.acc la ++ lineMisses rt Perm.read.acc sr
          if misses ≠ [] then .hold (s.holdOn x.v.f.id x.v.t.core x.v.l.ctx misses)
          else
            .next (x.enqueueOn s { Work.of .app 5 [] with
              laneVals := ls.map fun L => (L, BitVec.ofNat 128 ((x.appOffs L).1 % 2 ^ 64 + (x.appOffs L).2 % 2 ^ 64 * 2 ^ 64)),
              recA := x.recBits 2, recD := x.recBits 4, mode := x.v.regNo .vec x.e.d.num.toNat, returns := true })

/-- APP (R312 to R314). -/
def execApp (e : Enc) (s : State) : Host.Outcome State Fault Refusal := issue (.app e) e noStep3 Iss.app s

/-- The lanes of an append in order: those that stay in ACTIVE'. -/
def EngOp.appLanes (o : EngOp) : List Nat := o.laneVals.map Prod.fst

/-- The header and source offsets of a lane. -/
def EngOp.appAt (o : EngOp) (L : Nat) : Nat × Nat :=
  let v := (SMap.get 0 o.laneVals L).toNat
  (v % 2 ^ 64, v / 2 ^ 64)

/-- The list record and the source record. -/
def EngOp.appList (o : EngOp) : Buf := o.buf
/-- The source record. -/
def EngOp.appSource (o : EngOp) : Buf := Buf.of o.recD.toNat

/-- The index that a header gives: its tail when that is below its capacity, else 2^32 − 1 (R312, R313). -/
def appIndex (header : Nat) : Nat := if header % 2 ^ 32 < header / 2 ^ 32 then header % 2 ^ 32 else 2 ^ 32 - 1

/-- The increment of one lane's tail, with the header's first 8 bytes as found. -/
def Eng.appTail (g : Eng) (s : State) (L : Nat) : Io :=
  g.rmw s (g.o.appList.va (g.o.appAt L).1) 8 g.o.appList fun h =>
    if h % 2 ^ 32 < h / 2 ^ 32 then h % 2 ^ 32 + 1 else h % 2 ^ 32

/-- Whether a lane's row is stored: it has an index and lies within the list's extent. -/
def EngOp.appStores (o : EngOp) (L idx : Nat) : Bool :=
  decide (idx ≠ 2 ^ 32 - 1) && decide ((o.appAt L).1 + 64 + (idx + 1) * appRow o.enc ≤ o.appList.extent)

/-- The increments of an append, lane by lane; the last makes the lanes' D known (R314). -/
def Eng.appTails (g : Eng) (s : State) : Turn :=
  let o := g.o
  let ls := o.appLanes
  let known := fun (s : State) (vals : List Nat) =>
    let idx := fun L => match ls.findIdx? fun k => k == L with
      | some i => vals.getD i 0
      | none => 2 ^ 32 - 1
    let w : RegWrite :=
      { cls := .vec, reg := o.mode, lanes := o.lanes, vals := (lanesOf o.lanes).map fun L => (L, BitVec.ofNat 32 (idx L)) }
    let s := s.finishResult o.fid o.result [w]
    s.modOp g.t.id o.id fun p => { p with vals := vals, result := none }
  match ls[o.vals.length]? with
  | none => .more (known s o.vals) 1 0 0
  | some L =>
    match g.appTail s L with
    | .stop t => t
    | .ok h s =>
      let vals := o.vals ++ [appIndex h]
      if vals.length < ls.length then .more (s.modOp g.t.id o.id fun p => { p with vals := vals }) 0 0 0
      else .more (known s vals) 1 0 0

/-- The pieces of 16 bytes of a side-log entry's data (R436). -/
def rowSegs (lane key n v : Nat) : List Seg :=
  (List.range ((n + 15) / 16)).map fun i =>
    { lane := lane, key := key + 16 * i, bit := 0, nbits := 8 * min 16 (n - 16 * i), eltBit := 0,
      data := BitVec.ofNat 128 (v / 2 ^ (128 * i)), data2 := 0 }

/-- A run of a row whose page is missing goes into the side log, one entry for each line of the operation (R313, R436, R486); the
operation waits once for each granule (R431). Entries stand by the issue of the `app` and by line address. None when the log or the filter
has no room. -/
def Eng.logRow (g : Eng) (s : State) (lane va n v : Nat) (m : Miss) : Option State :=
  let o := g.o
  let line := lineOf va
  let mine := fun e : LogEntry => decide (e.owner = some o.id)
  let same := fun e : LogEntry => mine e && decide (e.va = line)
  let segs := rowSegs lane (va - line) n v
  if s.sideLog.any same then
    some { s with sideLog := replaceBy same (fun e =>
      { e with lanes := e.lanes ||| BitVec.ofNat 32 (2 ^ lane), segs := e.segs ++ segs }) s.sideLog }
  else if 256 ≤ (s.logOf g.t.core).length then none
  else
    let counted := s.sideLog.any fun e => mine e && decide (granuleOf e.va = granuleOf va)
    (if counted then some s else s.gather g.t.core g.ctx [m]).map fun s =>
      let e : LogEntry :=
        { id := s.nextId, issue := o.id, team := g.t.id, fid := o.fid, core := g.t.core, tower := o.tower, ip := o.ip,
          lanes := BitVec.ofNat 32 (2 ^ lane), ctx := g.ctx, va := line, kind := .store, order := .weak, scope := o.enc.sc.toNat,
          signed := false, nbits := 8, segs := segs, owner := some o.id, plo := m.plo, ht := m.ht, parked := false,
          tag := false, unkeyed := none }
      { s with nextId := s.nextId + 1, sideLog := insertLog e s.sideLog }

/-- The rows of an append: one run of the row of lane pos − 1; a row that finds no room in the side log or the filter holds the
operation there (R436). -/
def Eng.appRows (g : Eng) (s : State) : Turn :=
  let o := g.o
  let n := appRow o.enc
  let k := o.pos - 1
  let l1 := decide (o.enc.sc = 0)
  match o.appLanes[k]? with
  | none => .waits s
  | some L =>
    let idx := o.vals.getD k 0
    if !o.appStores L idx then .more s (o.pos + 1) 0 0
    else
      let src := o.appSource.va ((o.appAt L).2 + o.part : Nat)
      let dst := o.appList.va ((o.appAt L).1 + 64 + idx * n + o.part : Nat)
      let r := min (n - o.part) (min (128 - src % 128) (128 - dst % 128))
      let step := fun s : State => if o.part + r < n then Turn.more s o.pos (o.part + r) 0 else Turn.more s (o.pos + 1) 0 0
      match g.read s src r o.appSource l1 false with
      | .stop t => t
      | .ok v s => match g.write s dst r v o.appList l1 false with
        | .ok _ s => step s
        | .stop (.miss s m) => match g.logRow s L dst r v m with
          | some s => step s
          | none => .stuck s (granuleOf dst)
        | .stop t => t

/-- APP_ROW_STORE (R364): the next row of the msg operation of that name. -/
def execAppRowStore (op : Nat) (s : State) : Host.Outcome State Fault Refusal :=
  match s.teams.find? fun t => t.queues.any fun o => o.id == op with
  | some t =>
    if (s.engHead t 5).any fun o => o.id == op && decide (o.kind = .app) && decide (1 ≤ o.pos) then
      .next (s.engTurn t.id 5 Eng.appRows)
    else .next s
  | none => .next s

/-- An append goes on: its tails; then it waits for its rows and for the replay of those in the side log (R438). -/
def Eng.app (g : Eng) (s : State) : Turn :=
  if g.o.pos = 0 then g.appTails s
  else if g.o.pos ≤ g.o.appLanes.length ∨ s.sideLog.any fun e => decide (e.owner = some g.o.id) then .waits s
  else .done s []

/-- A turn of a msg operation. -/
def Eng.msg (g : Eng) (s : State) : Turn :=
  match g.o.kind with
  | .am => g.am s
  | .app => g.app s
  | .putsig => if g.o.pos = 1 then .waits s else g.copy s
  | _ => g.copy s

/-- MSG_OPERATION (R163). -/
def execMsgOperation (team : Nat) (s : State) : Host.Outcome State Fault Refusal := .next (s.engTurn team 5 Eng.msg)

/-! ## Waits on signals (R311) -/

/-- SIGW (R165, R311). -/
def Iss.sigw (x : Iss) : Act :=
  match x.held (x.v.s.accessHold x.v.f) with
  | some r => r
  | none =>
    let b := x.buf 2
    match x.bufTrap 2 b [.read] with
    | some t => t
    | none =>
      let es := x.oneWord b
      match x.elemTrap b es 4 1 with
      | some t => t
      | none =>
        if es.all fun e => !e.inb then .next x.v.s
        else x.watchWord es b (.sigw (BitVec.ofNat 32 (x.u32 5))) .acquire x.e.sc.toNat 0 .watch

/-- SIGW (R311). -/
def execSigw (e : Enc) (s : State) : Host.Outcome State Fault Refusal := issue (.sigw e) e noStep3 Iss.sigw s

/-! ## Collectives as instructions (R315, R316) -/

/-- The status word of the descriptor at offset B: its element for every lane of ACTIVE. -/
def Iss.statusWord (x : Iss) (b : Buf) : List Elem := (lanesOf x.act).map fun L => b.elem L 4 (x.u32 3 : Nat)

/-- The checks of a descriptor's place and of its record, which must have SWZ 0 (R315, R365). -/
def Iss.descTrap (x : Iss) (b : Buf) : Option Act :=
  if x.u32 3 % 64 ≠ 0 ∨ b.extent < x.u32 3 + 64 then some (x.badValue 3 x.act)
  else match x.bufTrap 2 b [.read, .write] true with
    | some t => some t
    | none => x.elemTrap b (x.statusWord b) 4 2

/-- The operations and side-log entries that have got their names from a name on. -/
def State.namedFrom (s : State) (n : Nat) : List Nat :=
  ((s.ops.map MemOp.id) ++ s.sideLog.map LogEntry.id).filter fun i => decide (n ≤ i)

/-- COLL (R315): a relaxed store of 0 to the status word, then the operation enters the coll queue. It begins once that store has
performed, so that the status that it writes is the later one. -/
def Iss.coll (x : Iss) : Act :=
  x.intoQueue 6 fun x =>
    match x.held (x.v.s.accessHold x.v.f) with
    | some r => r
    | none =>
      let b := x.buf 2
      match x.descTrap b with
      | some t => t
      | none =>
        x.translateAndSend
          { kind := .store, order := .relaxed, scope := x.e.sc.toNat, signed := false, nbits := 32, alloc := true, perm := .write,
            zeros := 0, dcls := .none, dreg := 0, words := 0, loads := false } b (elemPieces (x.statusWord b) noData noData)
          fun s =>
            let store := s.namedFrom x.v.s.nextId
            .next (x.enqueueOn (s.settle x.v.f.id) { Work.of .coll 6 [x.u32 3] with recA := x.recBits 2, after := store })

/-- COLL (R315). -/
def execColl (e : Enc) (s : State) : Host.Outcome State Fault Refusal := issue (.coll e) e noStep3 Iss.coll s

/-- COLLW (R316). -/
def Iss.collw (x : Iss) (test : Bool) : Act :=
  match x.held (x.v.s.accessHold x.v.f) with
  | some r => r
  | none =>
    let b := x.buf 2
    match x.descTrap b with
    | some t => t
    | none =>
      let es := x.statusWord b
      if test then
        x.translateAndSend
          { kind := .load, order := .acquire, scope := x.e.sc.toNat, signed := false, nbits := 32, alloc := false, perm := .read,
            zeros := 0, dcls := .uni, dreg := x.e.d.num.toNat, words := 1, loads := true } b (elemPieces es noData noData) x.sent
      else x.watchWord es b (.collw false) .acquire x.e.sc.toNat x.e.d.num.toNat .watch

/-- COLLW (R316). -/
def execCollw (e : Enc) (s : State) : Host.Outcome State Fault Refusal := issue (.collw e) e noStep3 (fun x => x.collw false) s

/-- COLLW_TEST (R316). -/
def execCollwTest (e : Enc) (s : State) : Host.Outcome State Fault Refusal := issue (.collwTest e) e noStep3 (fun x => x.collw true) s

end Sys2Proof.Machine
end

