-- ==== Sys2Proof/Machine/System.lean ====
section
/-! DEFINITION. The system group (R323 to R329): traps on demand and the return from one, special registers, firmware calls,
the end of a launch. -/

namespace Sys2Proof.Machine

/-! ## Traps (R324, R325) -/

/-- TRAP (R324): the software cause. -/
def execTrap (e : Enc) (s : State) : Host.Outcome State Fault Refusal :=
  issue (.trap e) e noStep3 (fun x => .trap 0x16 0 (x.u32 2 % 2 ^ 16) x.act 0) s

/-- BKPT (R324): the breakpoint cause. -/
def execBkpt (e : Enc) (s : State) : Host.Outcome State Fault Refusal :=
  issue (.bkpt e) e noStep3 (fun x => .trap 0x17 0 (x.u32 2 % 2 ^ 16) x.act 0) s

/-- `rtt` outside the Handler state traps (R325, R413). -/
def inHandler (x : Iss) : Option (Nat × Nat) := if x.v.f.handler then none else some (18, 1)

/-- RTT_RESUME (R325): the fibre becomes Ready, and its slot passes (R42, R50). -/
def execRttResume (e : Enc) (s : State) : Host.Outcome State Fault Refusal :=
  issue (.rttResume e) e inHandler
    (fun x => .placed ((x.v.s.returnTrap x.v.f.id 0).leave x.v.f.id .ready .none)) s

/-- RTT_RETRY (R325). -/
def execRttRetry (e : Enc) (s : State) : Host.Outcome State Fault Refusal :=
  issue (.rttRetry e) e inHandler
    (fun x => .placed ((x.v.s.returnTrap x.v.f.id 1).leave x.v.f.id .ready .none)) s

/-- RTT_END (R325). -/
def execRttEnd (e : Enc) (s : State) : Host.Outcome State Fault Refusal :=
  issue (.rttEnd e) e inHandler (fun x => .placed (x.v.s.returnTrap x.v.f.id 2)) s

/-! ## Special registers (R80, R326, R327) -/

/-- A special register that `swr` and the flags write, as a `srd` sees it (R45). -/
def View.spec (v : View) (n : Nat) (cur : Word) : Nat :=
  (readUnder v.s (2 ^ 112 + 2 ^ 16 * n) 0 cur (v.hazardsOn .spec n 0)).toNat

/-- What a special register holds; `%lane` is a lane's own (R80, R81, R83). -/
def Iss.special (x : Iss) (n L : Nat) : Nat :=
  let v := x.v
  match n with
  | 0 => L
  | 1 => groupWidth
  | 2 => v.f.sgw.toNat
  | 3 => v.f.role
  | 4 => v.f.slot * v.t.perSlot + v.f.role
  | 5 => v.t.tx.toNat
  | 6 => v.t.ty.toNat
  | 7 => v.t.tz.toNat
  | 8 => v.t.gx.toNat
  | 9 => v.t.gy.toNat
  | 10 => v.t.gz.toNat
  | 11 => v.t.crank
  | 12 => v.t.core % 96
  | 13 => dieOf v.t.core
  | 14 => towerOf v.t.core
  | 15 => v.s.pkg.pkgNo
  | 16 => v.s.now % 2 ^ 64
  | 17 => v.t.locl.toNat
  | 18 => v.t.locr.toNat
  | 19 => v.spec 19 v.f.fpflags
  | 20 => v.spec 20 v.f.rmode
  | 21 => if v.f.handler then v.f.trapinfo.pack else 0
  | _ => v.spec 22 v.f.rngmode

/-- SRD (R326): in a uniform register, `%lane` is the lowest lane of ACTIVE. -/
def execSrd (e : Enc) (s : State) : Host.Outcome State Fault Refusal :=
  issue (.srd e) e noStep3 (fun x =>
    let n := e.a.num.toNat
    let first := (lanesOf x.act).headD 0
    x.fixed 2 (x.writesTo e.d (specWords n) x.act fun L => x.special n (if e.d.cls = .uni then first else L))) s

/-- The write of a special register; reserved bits are ignored (R80, R82, R327). -/
def Fibre.writeSpec (f : Fibre) (n : Nat) (w : Word) (until_ : Option Nat) : Fibre :=
  match n with
  | 19 => { f.noteSpec 19 f.fpflags until_ with fpflags := w &&& 31 }
  | 20 => { f.noteSpec 20 f.rmode until_ with rmode := w &&& 3 }
  | _ => { f.noteSpec 22 f.rngmode until_ with rngmode := w &&& 3 }

/-- SWR (R82, R327): a write to `%fpflags` comes after the flags of every earlier instruction. -/
def execSwr (e : Enc) (s : State) : Host.Outcome State Fault Refusal :=
  issue (.swr e) e noStep3 (fun x =>
    let n := e.d.num.toNat
    let s := x.v.s.modFibre x.v.f.id fun f => f.writeSpec n (BitVec.ofNat 32 (x.u32 2)) (some (x.v.s.now + 2))
    let merge := fun r : Result => if r.fid = x.v.f.id ∧ n = 19 then { r with flags := 0 } else r
    .next { s with results := s.results.map merge }) s

/-! ## Firmware calls (R328) -/

/-- A firmware call: a release of everything earlier, then a request to the command parser core. The service is the one
that A holds when the instruction runs. -/
def Iss.fwcall (x : Iss) : Act :=
  match x.held (x.v.s.arriveHold x.v.f) with
  | some r => r
  | none =>
    let sv := x.u32 2
    if 255 < sv then x.badValue 2 x.act
    else
      let s := x.v.s.writeBackAll x.v.t.core
      let (r, s) := s.addResult x.v.f.id false [] 0
      let args := (List.range 8).map fun k => x.v.reg .uni (x.e.b.num.toNat + k) 0
      .next { s with calls := s.calls ++ [{ id := r, fid := x.v.f.id, service := sv, args := args, dreg := x.e.d.num.toNat }] }

/-- FWCALL_ECHO (R328). -/
def execFwcallEcho (e : Enc) (s : State) : Host.Outcome State Fault Refusal :=
  issue (.fwcallEcho e) e noStep3 Iss.fwcall s

/-- FWCALL_FEATURE_VECTOR (R328). -/
def execFwcallFeatureVector (e : Enc) (s : State) : Host.Outcome State Fault Refusal :=
  issue (.fwcallFeatureVector e) e noStep3 Iss.fwcall s

/-- FWCALL_LOG (R328). -/
def execFwcallLog (e : Enc) (s : State) : Host.Outcome State Fault Refusal :=
  issue (.fwcallLog e) e noStep3 Iss.fwcall s

/-- FWCALL_NO_SERVICE (R328). -/
def execFwcallNoService (e : Enc) (s : State) : Host.Outcome State Fault Refusal :=
  issue (.fwcallNoService e) e noStep3 Iss.fwcall s

/-! ## Halt (R329) -/

/-- HALT (R329): the launch has an outcome, so that none of its fibres issues again; LAUNCH_COMPLETE ends it. -/
def execHalt (e : Enc) (s : State) : Host.Outcome State Fault Refusal :=
  issue (.halt e) e noStep3 (fun x => .next (x.v.s.endLaunch x.v.l.id 2 (x.u32 2))) s

end Sys2Proof.Machine
end

