-- ==== Sys2Proof/Machine/TaskOps.lean ====
section
/-! DEFINITION. Tasks, nodes and the Hen as instructions: `tspawn`, `tcommit`, `nemit` and `rdr` (R318 to R322, R345, R348,
R349, R448). -/

namespace Sys2Proof.Machine

/-! ## Task records (R349, R448) -/

/-- The number of read ranges, of write ranges, and log2 of the tile size that a task kernel declares (R341). -/
def Kernel.taskShape (k : Kernel) : Nat × Nat × Nat := (k.field 194 192, k.field 197 195, k.field 202 198)

/-- The words of a node kernel's record and its gather timer (R341). -/
def Kernel.nodeShape (k : Kernel) : Nat × Nat := (k.field 195 192 + 1, k.field 223 208)

/-- Whether an address of a context names the record that another address of another context names: they reach the same storage, or,
where the first reaches none, they are equal (log 85). -/
def State.sameRecord (s : State) (ctx addr qctx recVa : Nat) : Bool :=
  let at_ := fun (c a : Nat) => match (s.translateNoCache c a .any).1 with
    | .ok p => some p.key
    | _ => none
  match at_ ctx addr with
  | some k => decide (at_ qctx recVa = some k)
  | none => addr == recVa

/-- A launch of a kind, open, by the address of its record as a team sees it (R345). -/
def State.openLaunch (s : State) (ctx addr kind : Nat) : Option Launch :=
  s.launches.find? fun l => l.kind == kind && l.isOpen && decide (l.outcome = none) && s.sameRecord ctx addr l.qctx l.recVa

/-- The range words of a task record: reads at 0 to 3, writes at 4 and 5. -/
def rangeWord (rec k : Nat) : Nat := bits rec (32 * k + 159) (32 * k + 128)

/-- The used ranges among some words: first tile and count. -/
def usedRanges (rec : Nat) (ks : List Nat) : List (Nat × Nat) :=
  (ks.filter fun k => bitN (rangeWord rec k) 31).map fun k => (bits (rangeWord rec k) 23 0, bits (rangeWord rec k) 26 24 + 1)

/-- The ranges of some words in their places; an unused one holds no tile. -/
def placedRanges (rec : Nat) (ks : List Nat) : List (Nat × Nat) :=
  ks.map fun k => if bitN (rangeWord rec k) 31 then (bits (rangeWord rec k) 23 0, bits (rangeWord rec k) 26 24 + 1) else (0, 0)

/-- The tiles of a list of ranges. -/
def rangeTiles (rs : List (Nat × Nat)) : List Nat := rs.flatMap fun r => (List.range r.2).map fun i => r.1 + i

/-- The number of versions in a task launch's pool (R338). -/
def Launch.poolSize (l : Launch) : Nat := l.field 0x98 4

/-- The refusal code of a task record, in table order (R448). -/
def taskRefusal (rec : Nat) (l : Option Launch) : Option Nat :=
  let reads := usedRanges rec [0, 1, 2, 3]
  let writes := usedRanges rec [4, 5]
  if bits rec 95 65 ≠ 0 ∨ bits rec 511 320 ≠ 0 ∨ (List.range 6).any fun k => bits (rangeWord rec k) 30 27 ≠ 0 then some 1
  else match l with
    | none => some 2
    | some l =>
      let shape := (l.kernelAt l.kernel).taskShape
      if reads.length ≠ shape.1 ∨ writes.length ≠ shape.2.1 then some 3
      else if (reads ++ writes).any fun r => decide (2 ^ 24 < r.1 + r.2) then some 4
      else if l.poolSize < (rangeTiles writes).length then some 5
      else none

/-- The lowest-numbered free entry of the dependence table (R351). -/
def State.freeEntry (s : State) : Option Nat := (List.range 8192).find? fun e => s.tasks.all fun t => t.entry != e

/-- Whether every lower task of the launch whose write ranges overlap a task's read ranges has committed (R57, R352). -/
def State.taskFree (s : State) (t : Task) : Bool :=
  s.tasks.all fun u =>
    !(u.launch == t.launch && decide (u.seq < t.seq)) || decide (u.state = .committed) || decide (u.state = .retired) ||
      !(rangeTiles u.writes).any fun x => (rangeTiles t.reads).contains x

/-- Waiting tasks that wait for no other become Ready (R352). -/
def State.promoteTasks (s : State) : State :=
  { s with tasks := s.tasks.map fun t => if t.state = .waiting ∧ s.taskFree t then { t with state := .ready } else t }

/-- A task enters the table: its sequence number is the count of tasks entered before it (R319). -/
def State.enterTask (s : State) (l : Launch) (entry rec : Nat) : State :=
  let t : Task :=
    { entry := entry, launch := l.id, seq := l.nextTeam, recVa := l.recVa, mig := bitN rec 64, arg := BitVec.ofNat 32 (bits rec 127 96),
      reads := placedRanges rec [0, 1, 2, 3], writes := placedRanges rec [4, 5], state := .waiting, versions := [], heldVa := none }
  (({ s with tasks := s.tasks ++ [t] }).modLaunch l.id fun l => { l with nextTeam := l.nextTeam + 1 }).promoteTasks

/-- The bytes of a run of a buffer by their lines, each where the swizzle puts it (R121, R122). -/
def runLines (b : Buf) (lane off n : Nat) : List VLine :=
  gatherLines ((List.range n).map fun i =>
    let va := b.va (off + i : Nat)
    (lineOf va, { lane := lane, key := va % 128, bit := 0, nbits := 8, eltBit := 8 * i, data := 0, data2 := 0 }))

/-- Reads the bytes of lines for a fibre, each line counted once (R130). -/
def State.readLines (s : State) (team : Nat) : List (Place × List Seg) → Nat × State
  | [] => (0, s)
  | (p, gs) :: ps =>
    let (v, s) := gs.foldl (fun (a : Nat × State) g =>
      let (x, s) := a.2.homeRead (p.key + g.key) 1
      (a.1 + x * 2 ^ g.eltBit, s)) (0, s.countLine team p)
    let (w, s) := s.readLines team ps
    (v + w, s)

/-- The record of a `tspawn` is read: refused, it gives 2^32 − 1 and an error record; else it enters the table (R319). -/
def Iss.spawn (x : Iss) (s : State) (entry va rec : Nat) : Act :=
  let v := x.v
  let l := s.openLaunch v.l.ctx (rec % 2 ^ 64) 1
  match taskRefusal rec l, l with
  | none, some l =>
    .next ((s.enterTask l entry rec).addResult v.f.id true (x.writesTo x.e.d 1 x.act fun _ => l.nextTeam % 2 ^ 32) 0).2
  | some code, _ =>
    let s := s.errorRecord 5 1 4 (v.t.core % 96) (dieOf v.t.core) (towerOf v.t.core)
      [(0x18, 8, va), (0x20, 4, code), (0x24, 4, v.ip.toNat)]
    .next (s.addResult v.f.id true (x.writesTo x.e.d 1 x.act fun _ => 2 ^ 32 - 1) 0).2
  | none, none => .next s

/-- TSPAWN (R319, R448): a release at package scope; then the record is read. -/
def Iss.tspawn (x : Iss) : Act :=
  let v := x.v
  let b := x.buf 2
  let off := x.u32 3
  if off % 64 ≠ 0 ∨ b.extent < off + 64 then x.badValue 3 x.act
  else match x.bufTrap 2 b [.read] with
    | some t => t
    | none =>
      let va := b.va off
      let lines := runLines b ((lanesOf x.act).headD 0) off 64
      if lines.any fun l => decide (2 ^ 57 ≤ l.va) then .trap 6 0 0 x.act 0
      else match x.held (v.s.arriveHold v.f) with
        | some r => r
        | none => match v.s.freeEntry with
          | none => x.park v.s .parked .table
          | some entry =>
            let s := v.s.writeBackAll v.t.core
            let (ts, s) := s.translateLines v.t.core v.l.ctx .read lines
            match worstWalk (lineFailures ts) with
            | some (_, c, d) => .trap c 0 d x.act 0
            | none =>
              let misses := lineMisses ts Perm.read.acc b
              if misses ≠ [] then .hold (s.holdOn v.f.id v.t.core v.l.ctx misses)
              else
                let (rec, s) := s.readLines v.t.id (lineHits ts)
                x.spawn s entry va rec

/-- TSPAWN (R319). -/
def execTspawn (e : Enc) (s : State) : Host.Outcome State Fault Refusal := issue (.tspawn e) e noStep3 Iss.tspawn s

/-! ## Commit (R320) -/

/-- `tcommit` outside a task launch, or in the handler (R320, R413). -/
def inTask (x : Iss) : Option (Nat × Nat) := if x.v.l.kind ≠ 1 then some (16, 0) else noHandler x

/-- TCOMMIT (R320): an arrival; after the commit only a release. -/
def execTcommit (e : Enc) (s : State) : Host.Outcome State Fault Refusal :=
  issue (.tcommit e) e inTask (fun x =>
    if !x.v.t.committed then x.arriving 10
    else match x.held (x.v.s.arriveHold x.v.f) with
      | some r => r
      | none => .next (x.v.s.writeBackAll x.v.t.core)) s

/-! ## Records for nodes and the Hen (R321, R322) -/

/-- The batches of a node launch that have launched and wait for admission (R348). -/
def State.batchesWaiting (s : State) (l : Nat) : Nat :=
  (s.qteams.filter fun q => q.launch == l && decide (q.origin = .node) && q.restore.isNone).length

/-- Whether a node's front end has room: a batch that these records may fill finds its place among the 64 that have launched and
wait for admission (R321, R348). -/
def State.nodeRoom (s : State) (l : Launch) : Bool :=
  decide (s.batchesWaiting l.id + (l.batch.recs.length + l.batch.incoming.length) / 32 < 64)

/-- NEMIT (R321, R449): a release at package scope; a record for each lane of ACTIVE. -/
def Iss.nemit (x : Iss) : Act :=
  let v := x.v
  let n := x.u32 2
  if v.l.nodes.length ≤ n then x.badValue 2 x.act
  else match v.s.openLaunch v.l.ctx (v.l.nodes.getD n 0) 2 with
    | none =>
      match x.held (v.s.arriveHold v.f) with
      | some r => r
      | none =>
        .next ((v.s.writeBackAll v.t.core).errorRecord 6 1 4 (v.t.core % 96) (dieOf v.t.core) (towerOf v.t.core)
          [(0x18, 8, v.l.recVa), (0x20, 4, n), (0x24, 4, v.ip.toNat)])
    | some l =>
      let k := (l.kernelAt l.kernel).nodeShape.1
      let d := x.e.d.num.toNat
      if v.size < d + k then x.badValue 1 x.act
      else if x.badRegs .vec d k ≠ 0 then .trap 0x15 0 1 (x.badRegs .vec d k) 0
      else match x.held (v.s.arriveHold v.f) with
        | some r => r
        | none =>
          if !v.s.nodeRoom l then .hold v.s
          else
            let recs := (lanesOf x.act).map fun L => (List.range k).map fun i => v.reg .vec (d + i) L
            .next ((v.s.writeBackAll v.t.core).modLaunch l.id fun l =>
              { l with batch := { l.batch with incoming := l.batch.incoming ++ recs } })

/-- NEMIT (R321). -/
def execNemit (e : Enc) (s : State) : Host.Outcome State Fault Refusal := issue (.nemit e) e noStep3 Iss.nemit s

/-- `rdr` without the Hen grant (R322). -/
def hasHen (x : Iss) : Option (Nat × Nat) := if x.v.l.hen then none else some (17, 0)

/-- RDR (R69, R322): a release at package scope; each lane of ACTIVE deposits its record and exits. -/
def execRdr (e : Enc) (s : State) : Host.Outcome State Fault Refusal :=
  issue (.rdr e) e hasHen (fun x =>
    let v := x.v
    let d := e.d.num.toNat
    if v.size < d + 16 then x.badValue 1 x.act
    else match x.held (v.s.arriveHold v.f) with
      | some r => r
      | none =>
        let recs := (lanesOf x.act).map fun L =>
          ({ launch := v.l.id, key := BitVec.ofNat 32 (x.src 2 .u32 L), payload := (List.range 16).map fun i => v.reg .vec (d + i) L } : HenRec)
        let s := (v.s.writeBackAll v.t.core).modTower (towerOf v.t.core) fun y => { y with deposits := y.deposits ++ recs }
        .moved (s.exitLanes v.f.id x.act)) s

end Sys2Proof.Machine
end

