-- ==== Sys2Proof/Machine/FaultStage.lean ====
section
/-! DEFINITION. Translation faults on their way to software (R431 to R433), and their resolution by INVAL: the replay of
side-log entries, held operations and held fibres (R401, R434, R437 to R440, R449). -/

namespace Sys2Proof.Machine

/-! ## Cluster stages (R432) -/

/-- A filter entry merged into the key that a stage or core 3 holds. -/
def StageEntry.merge (x : StageEntry) (f : FilterEntry) : StageEntry :=
  { x with
    acc := x.acc ||| f.acc, waiters := x.waiters + f.waiters,
    conflict := x.conflict || f.conflict || placeClash x.plo x.ht f.plo f.ht }

/-- A stage of 128 entries takes a filter entry, or has no room. -/
def stageAdd (xs : List StageEntry) (f : FilterEntry) (die now : Nat) : Option (List StageEntry) :=
  let same := fun x : StageEntry => x.ctx == f.ctx && x.va == f.va
  if xs.any same then some (replaceBy same (fun x => x.merge f) xs)
  else if xs.length < 128 then
    some (xs ++ [{ ctx := f.ctx, va := f.va, acc := f.acc, level := f.level, plo := f.plo, ht := f.ht, conflict := f.conflict,
                   waiters := f.waiters, die := die, since := now }])
  else none

/-- The cores of a die that hold filter entries pass them to the stage, as long as it has room; each one passed frees its
place. -/
def State.passFilter (s : State) (die core : Nat) : List FilterEntry → State
  | [] => s
  | f :: fs => match stageAdd (s.layer die).stage f die s.now with
    | none => s
    | some xs =>
      let s := s.modLayer die fun y => { y with stage := xs }
      let s := s.modCore core fun c => { c with filter := c.filter.erase f }
      (s.wakeRoom core).passFilter die core fs

/-- Every core of a die in turn. -/
def State.passFilters (s : State) (die : Nat) : State :=
  (s.cores.filter fun c => dieOf c.id == die).foldl (fun s c => s.passFilter die c.id c.filter) s

/-- The 256 bits of a fault record (R433). -/
def State.faultRecord (s : State) (x : StageEntry) : Nat :=
  x.va + x.ctx * 2 ^ 64 + x.acc.toNat * 2 ^ 128 + x.level * 2 ^ 132 + x.plo.toNat * 2 ^ 135 + x.ht.toNat * 2 ^ 138
    + b2n x.conflict * 2 ^ 140 + min x.waiters 65535 * 2 ^ 144 + x.die * 2 ^ 160 + s.pkg.pkgNo * 2 ^ 168
    + s.pkg.errSeq % 2 ^ 64 * 2 ^ 192

/-- A key reaches core 3: one record for it while it is outstanding, and none for what merges later (R432). -/
def State.keyToCore3 (s : State) (x : StageEntry) : State :=
  let same := fun y : StageEntry => y.ctx == x.ctx && y.va == x.va
  if s.keys.any same then { s with keys := replaceBy same (fun y => { y with waiters := y.waiters + x.waiters }) s.keys }
  else
    let s := s.errorRecord 1 1 3 127 x.die (x.die / 6) [(0x18, 32, s.faultRecord x)]
    { s with keys := s.keys ++ [x] }

/-- The keys of a stage that have been held for 64 cycles pass to core 3. -/
def State.releaseStage (s : State) (die : Nat) : State :=
  let old := fun x : StageEntry => decide (x.since + 64 ≤ s.now)
  let due := (s.layer die).stage.filter old
  let s := s.modLayer die fun y => { y with stage := y.stage.filter fun x => !old x }
  due.foldl State.keyToCore3 s

/-- Whether the stage of a die has something to do. -/
def State.stageDue (s : State) (die : Nat) : Bool :=
  ((s.layer die).stage.any fun x => decide (x.since + 64 ≤ s.now)) ||
    s.cores.any fun c => dieOf c.id == die && c.filter.any fun f => (stageAdd (s.layer die).stage f die s.now).isSome


/-! ## The range of an INVAL (R401, R434) -/

/-- A range of a context; a length of 0 is all of it. -/
structure Range where
  ctx : Nat
  lo : Nat
  len : Nat
deriving DecidableEq, Repr

/-- Whether n bytes at an address overlap the range. -/
def Range.covers (r : Range) (va n : Nat) : Bool := decide (r.len = 0) || (decide (va < r.lo + r.len) && decide (r.lo < va + n))

/-- Whether the granule at an address is covered. -/
def Range.hasGranule (r : Range) (ctx va : Nat) : Bool := r.ctx == ctx && r.covers (granuleOf va) 65536

/-! ## Replay (R437, R439) -/

/-- A side-log entry as the operation that it stands for. -/
def LogEntry.op (e : LogEntry) : MemOp :=
  { id := e.id, fid := e.fid, team := e.team, core := e.core, kind := e.kind, order := e.order, scope := e.scope, fence := false,
    signed := e.signed, nbits := e.nbits, alloc := false, hint := 0, ip := e.ip, lanes := e.lanes, zeros := 0, dcls := .none, dreg := 0,
    words := 0, result := none, tag := e.tag, performed := false }

/-- Adds a line to the counter that the tower of the original issue selects, in the resident or in the saved team (R437, R440); the lines
of `app` are not counted (R130). -/
def State.countReplay (s : State) (e : LogEntry) (p : Place) : State :=
  if e.owner.isSome then s
  else
  let near := decide (p.pkg = s.pkg.pkgNo) && decide (p.tower = e.tower)
  let add := fun t : Team => if near then { t with locl := t.locl + 1 } else { t with locr := t.locr + 1 }
  let s := s.modTeam e.team add
  let keep := fun x : SavedTeam => if near then { x with addL := x.addL + 1 } else { x with addR := x.addR + 1 }
  { s with saved := replaceBy (fun x => x.team.id == e.team) keep s.saved }

/-- A side-log entry performs at its home slice. -/
def State.performEntry (s : State) (e : LogEntry) (p : Place) : State :=
  let o := e.op
  let segs := e.segs.map fun g => g.placed p.key
  let s := s.beforePerform o p.key
  let (_, s) := s.performSegs o p.key (s.bankOf p) false segs
  let s := if o.tag ∧ pkgOfKey p.key = s.pkg.pkgNo then s.addTag p.key (s.bankOf p) o.core else s
  ((s.countReplay e p).settle e.fid).progressTeam e.team

/-- An entry leaves the log. -/
def State.dropEntry (s : State) (e : LogEntry) : State := { s with sideLog := s.sideLog.filter fun x => x.id != e.id }

/-- A trap found after issue for a fibre that is saved: it stands, and the fibre takes it at its next entry point after the restore; an
Ended fibre's is undelivered (R439, R440). -/
def State.postSaved (s : State) (e : LogEntry) (i : TrapInfo) : State :=
  let mark := fun f : Fibre => if f.id = e.fid ∧ f.run ≠ .ended then { f with pending := some (f.pending.getD i) } else f
  match s.saved.find? fun x => x.fibres.any fun f => f.id == e.fid with
  | none => s
  | some x =>
    if x.fibres.any fun f => f.id == e.fid && decide (f.run = .ended) then
      match s.launch? x.team.launch with
      | some l => s.fatalTrap x.team l i false
      | none => s
    else { s with saved := replaceBy (fun y => y.team.id == x.team.id) (fun y => { y with fibres := y.fibres.map mark }) s.saved }

/-- The trap of an entry whose replay fails, for the fibre that logged it, resident or saved (R439). -/
def State.entryTrap (s : State) (e : LogEntry) (cause detail : Nat) : State :=
  let i : TrapInfo := ⟨BitVec.ofNat 8 cause, 0, BitVec.ofNat 16 detail, e.lanes, e.ip, 0⟩
  (((s.dropEntry e).postTrap e.fid i).postSaved e i).settle e.fid

/-- An entry that met a missing page again opens a key, or waits for a free entry of the filter to open it (R431, R437). -/
def State.openKey (s : State) (e : LogEntry) : State :=
  match e.unkeyed with
  | none => s
  | some level =>
    let perm := if e.kind = .store then Perm.write else .atomic
    let m : Miss := { va := granuleOf e.va, acc := perm.acc, level := level, plo := e.plo, ht := e.ht }
    let mark := fun (s : State) (u : Option Nat) =>
      { s with sideLog := replaceBy (fun x => x.id == e.id) (fun x => { x with unkeyed := u }) s.sideLog }
    match s.gather e.core e.ctx [m] with
    | some s => mark s none
    | none => mark s (some level)

/-- One entry replays, fails, or meets a missing page again: then it stays, and the answer is false. -/
def State.replay (s : State) (e : LogEntry) : Bool × State :=
  let perm := if e.kind = .store then Perm.write else .atomic
  match (if e.parked then s.translateNoCache e.ctx e.va perm else s.translate e.core e.ctx e.va perm) with
  | (.bad _ c d, s) => (true, s.entryTrap e c d)
  | (.unmapped level, s) =>
    (false, s.openKey { e with unkeyed := some level })
  | (.ok p, s) =>
    if s.lostLine p.key ∧ !(e.kind = .store ∧ coversLine 0 e.segs) then (true, s.entryTrap e 0x15 14)
    else
      let s := s.modPkg fun k => { k with lostLines := k.lostLines.filter fun q => q.2 != p.key }
      (true, (s.dropEntry e).performEntry e p)

/-- The entries of the covered granules in entry order; one that stays keeps the later ones of its granule (R437). -/
def State.replayAll (s : State) (r : Range) : List (Nat × Nat) → List LogEntry → State
  | _, [] => s
  | stay, e :: es =>
    let g := granuleOf e.va
    if !r.hasGranule e.ctx e.va ∨ stay.contains (e.ctx, g) then s.replayAll r stay es
    else match s.replay e with
      | (true, s) => s.replayAll r stay es
      | (false, s) => s.replayAll r ((e.ctx, g) :: stay) es

/-- The entries that have a key still to open try again: places of the filters have become free. -/
def State.openKeys (s : State) : State := (s.sideLog.filter fun e => e.unkeyed.isSome).foldl State.openKey s

/-- CLUSTER_STAGE_RELEASE (R431, R432): entries pass from the core filters into the stage, and keys that it has held for 64
cycles to core 3. -/
def execClusterStageRelease (die : Nat) (s : State) : Host.Outcome State Fault Refusal :=
  .next ((s.releaseStage die).passFilters die).openKeys

/-! ## INVAL (R401, R434) -/

/-- Every core drops its cached translations of the range. -/
def State.dropCached (s : State) (r : Range) : State :=
  let covered := fun e : TlbEntry => e.ctx == r.ctx && r.covers (e.page * 2 ^ levelShift e.level) (2 ^ levelShift e.level)
  { s with cores := s.cores.map fun c => { c with tlb := c.tlb.filter fun e => !covered e } }

/-- The keys of the covered granules leave core 3, the stages and the filters, none with a record (R434). -/
def State.dropKeys (s : State) (r : Range) : State :=
  { s with
    keys := s.keys.filter fun x => !r.hasGranule x.ctx x.va,
    layers := s.layers.map fun y => { y with stage := y.stage.filter fun x => !r.hasGranule x.ctx x.va },
    cores := s.cores.map fun c => { c with filter := c.filter.filter fun x => !r.hasGranule x.ctx x.va } }

/-- Held engine operations on the covered granules go on (R441), and tasks that wait for a line there (R449). -/
def State.resumeHeld (s : State) (r : Range) : State :=
  let free := fun (ctx : Nat) (o : EngOp) => match o.held with
    | some va => if r.hasGranule ctx va then { o with held := none } else o
    | none => o
  let teams := s.teams.map fun t => { t with queues := t.queues.map (free (s.ctxOf t)) }
  let task := fun t : Task => match t.heldVa with
    | some va => if r.hasGranule (((s.launch? t.launch).map Launch.ctx).getD 0) va then { t with heldVa := none } else t
    | none => t
  { s with teams := teams, tasks := s.tasks.map task }

/-- Fibres held on the covered granules become Ready (R435). -/
def State.wakeHeld (s : State) (r : Range) : State :=
  s.fibres.foldl (fun s f => match f.run, f.waits with
    | .held, .granules ctx vas | .held, .logRoom ctx vas =>
      if vas.any fun va => r.hasGranule ctx va then s.wakeHeldFibre f.id else s
    | _, _ => s) s

/-- Whether no request of the context is on its way: each of them may have used an old translation (R401). -/
def State.quiet (s : State) (ctx : Nat) : Bool :=
  s.reqs.all fun q => q.state.isDone || (match (s.ownerOp q).bind fun o => s.team? o.team with
    | some t => s.ctxOf t != ctx
    | none => true)

/-- The work of an INVAL, its steps in order. -/
def State.invalidate (s : State) (r : Range) : State :=
  let s := (s.dropCached r).dropKeys r
  let s := s.replayAll r [] s.sideLog
  let s := s.openKeys
  let s := ((s.resumeHeld r).wakeHeld r).wakeLog
  s.cores.foldl (fun s c => (s.wakeRoom c.id).wakeLogRoom c.id) s

end Sys2Proof.Machine
end

