-- ==== Sys2Proof/WellFormed.lean ====
section
/-! DEFINITION. Well-formed instructions: a word that passes every check of R169 for some window, allotment and
accumulator count; an illegal word that is one; and every step of the device, which is no word. -/

namespace Sys2Proof

/-- The greatest window, allotment and accumulator count that a kernel can declare (R36, R39, R71). -/
def Limits.most : Limits := ⟨256, 128, 16⟩

/-- OP and MOD select the constructor, MOD is defined (check 2 of R169), and checks 3 to 5 pass. -/
def Instr.wordOk (i : Instr) (op : Nat) (e : Enc) : Bool :=
  decide (Instr.ofOp op e = some i) && i.modOk && decide (i.fault Limits.most = none)

/-- Whether the device reads a word as no instruction: OP unassigned or MOD undefined (R169, R183). -/
def illegalWord (w : BitVec 160) : Bool :=
  match Instr.ofOp (opOf w) (Enc.ofBits w) with
  | some i => !i.modOk
  | none => true

/-- Well-formed instructions. -/
def Instr.wellFormed (i : Instr) : Bool :=
  match i with
  | .illegalInstruction w => illegalWord w
  | _ =>
    match i.parts with
    | some (op, e) => i.wordOk op e
    | none => true

end Sys2Proof
end

