-- ==== Sys2Proof/Decode.lean ====
section
/-! DEFINITION. The decoder, total on any bytes, and the encoder (R168, R182, R183). -/

namespace Sys2Proof

open Sys2Proof.Machine

/-- Why bytes hold no instruction. -/
inductive DecodeError where
  /-- fewer than the 20 bytes of an instruction word (R168) -/
  | tooShort
deriving DecidableEq, Repr

/-- The instruction of a word. A word whose OP is unassigned or whose MOD is undefined is the illegal
instruction, which carries the word (checks 1 and 2 of R169, R183). -/
def decodeWord (w : BitVec 160) : Instr :=
  match Instr.ofOp (opOf w) (Enc.ofBits w) with
  | some i => if i.modOk then i else .illegalInstruction w
  | none => .illegalInstruction w

/-- The instruction at the front of a list of bytes, lowest address first, and the bytes after it. -/
def decode (bs : List Byte) : Except DecodeError (Instr × List Byte) :=
  if bs.length < 20 then .error .tooShort
  else .ok (decodeWord (BitVec.ofNat 160 (leN (bs.take 20))), bs.drop 20)

/-- The 160-bit word of an instruction; none for a step of the device. -/
def encode (i : Instr) : Option (BitVec 160) :=
  match i with
  | .illegalInstruction w => some w
  | _ => i.parts.map fun p => Enc.toBits p.1 p.2

/-- The 20 bytes of an instruction as they lie in memory (R6, R168). -/
def encodeBytes (i : Instr) : Option (List Byte) := (encode i).map fun w => toLe 20 w.toNat

/-- The five 32-bit words of an instruction, word 0 first (R168). -/
def encodeWords (i : Instr) : Option (List Word) :=
  (encode i).map fun w => (List.range 5).map fun k => w.extractLsb' (32 * k) 32

/-- The instruction that the decoder reads from a row of the opcode table: bit 0 of `w` is bit 0 of word 0, and
bits from `nbits` on are 0. -/
def decodeTableWord (nbits w : Nat) : Option Instr :=
  match decode (toLe 20 (w % 2 ^ nbits)) with
  | .ok (i, _) => some i
  | .error _ => none

end Sys2Proof
end

