-- ==== Sys2Proof/Machine/Start.lean ====
section
/-! DEFINITION. Teams, fibres and launches as they begin (R38 to R40, R80, R87, R289, R299). -/

namespace Sys2Proof.Machine

/-- A fibre at team start: every lane at the entry point, every register zero but for those that the launch places
(R40). -/
def Fibre.start (id team slot role : Nat) (entry : Word) (live : Mask) (base size allot now : Nat) : Fibre :=
  { id := id, team := team, slot := slot, role := role, run := .ready, waits := .none, handler := false,
    ips := SMap.setLanes 0 [] 0 (lanesOf live) fun _ => entry, live := live, waiting := 0, reserved := 0,
    winBase := base, winSize := size, winNext := none, allot := allot, uregs := [], preds := [], sgw := 32,
    fpflags := 0, rmode := 0, rngmode := 0, trapinfo := ⟨0, 0, 0, 0, 0, 0⟩, preIps := [], preLive := 0,
    preWait := 0, pending := none, notBefore := now, since := now, hazards := [], arrived := [], qhold := [],
    coreFence := false, heard := [] }

/-- A team with nothing in it yet: accumulators, tiles, scratchpad and pool zero, barriers at phase 0 (R40, R264,
R255; log 3). -/
def Team.start (id launch core kernel now : Nat) : Team :=
  { id := id, launch := launch, origin := .grid, index := 0, core := core, kernel := kernel, tx := 0, ty := 0, tz := 0,
    gx := 1, gy := 1, gz := 1, crank := 0, cluster := 0, clusterSize := 0, groups := 1, perSlot := 1, coreSlots := [],
    scratch := 0, nacc := 0, started := now, locl := 0, locr := 0, pool := [], tiles := [], accs := [], spad := [],
    fe := [], feq := [], spTags := [], cbufs := [], bars := [], fbars := [], cbar := ⟨0, []⟩, commit := ⟨0, []⟩, committed := false,
    queues := [], qfences := [], lease := .none, leaseLeft := 0, restored := false, entries := [], nslots := 0,
    beatsApplied := 0, stopped := false, bad := [] }

/-- A launch with nothing in it yet. -/
def Launch.start (id queue recVa qctx ctx now : Nat) (record : List Byte) : Launch :=
  { id := id, queue := queue, recVa := recVa, qctx := qctx, ctx := ctx, record := record, kind := 0, cls := 2,
    hen := false, mig := false, kernels := [], kernel := 0, cont := 0, handlers := [], nodes := [], code := [],
    codeBase := 0, codeLines := [], bySig := false, state := .running, isOpen := false, started := now,
    nextTeam := 0, nTeams := 0, ended := 0, watchdog := now, batch := ⟨[], none, []⟩, outcome := none,
    savedRuns := [], savedWins := [], spawned := 0, doneSpawned := 0 }

end Sys2Proof.Machine
end

