-- ==== Sys2Proof/Machine/Collective.lean ====
section
/-! DEFINITION. Collectives at the Ox units: the member at its origin (R365 to R369, R374, R375), packets at hops (R370 to R372),
the return path (R373), timeouts (R474, R475). -/

namespace Sys2Proof.Machine

/-! ## The descriptor (R365 to R368) -/

/-- The bytes of an element in memory, and the elements of a chunk (R369). -/
def collSizes (type : Nat) : Nat × Nat :=
  match type with
  | 1 | 2 => (2, 768)
  | 5 | 6 | 7 => (4, 32)
  | _ => (4, 384)

/-- Whether a type is exact. -/
def collExact (type : Nat) : Bool := decide (5 ≤ type)

/-- The hop id of the Ox of a tower of this package (R367). -/
def State.ox (s : State) (tower : Nat) : Nat := s.pkg.pkgNo + tower * 2 ^ 7

/-- Whether a hop is an Ox of this package. -/
def State.ownHop (s : State) (hop : Nat) : Bool := (List.range 4).any fun t => s.ox t == hop

/-- Whether a route entry breaks R367, or names a switch that takes no part: without RED in a port entry, or without the
feature accepted (R368, R405). -/
def State.badEntry (s : State) (e : Nat) : Bool :=
  let hop := e / 2 ^ 16
  let red := s.pkg.ports.any fun p => !p.getLsbD 5 && p.getLsbD 24 && decide (bits p.toNat 15 8 = bits hop 7 0)
  decide (bits e 15 10 ≠ 0) ||
    (if bitN hop 15 then decide (bits hop 14 8 ≠ 0) || !red || !s.pkg.accepted.getLsbD 3 else decide (bits hop 14 9 ≠ 0))

/-- The member that a descriptor of 128 bytes describes. -/
def Member.of (id team op now d : Nat) : Member :=
  let w := fun off => bits d (8 * off + 31) (8 * off)
  { id := id, team := team, op := op, control := w 4, rank := bits d 79 64, nmem := bits d 95 80, count := w 12,
    src := bits d 191 128, dst := bits d 255 192, collId := w 0x20, tmo := w 0x24, sigOff := w 0x28, sigInc := w 0x2C,
    route := (List.range (min 8 (bits (w 4) 11 8))).map fun k => w (0x30 + 4 * k), low := 0, doneChunks := [], errs := false,
    atOnce := false, timedOut := false, started := now }

/-- KIND. -/
def Member.kind (m : Member) : Nat := bits m.control 1 0
/-- TYPE. -/
def Member.type (m : Member) : Nat := bits m.control 5 2
/-- OP. -/
def Member.cop (m : Member) : Nat := bits m.control 7 6
/-- Whether SIG is set. -/
def Member.sig (m : Member) : Bool := bitN m.control 12

/-- The number of chunks: one of no elements for COUNT 0. -/
def Member.chunks (m : Member) : Nat := max 1 ((m.count + (collSizes m.type).2 - 1) / (collSizes m.type).2)

/-- The elements of a chunk. -/
def Member.nel (m : Member) (c : Nat) : Nat := min (collSizes m.type).2 (m.count - c * (collSizes m.type).2)

/-- Whether the signal counter is in bounds, aligned and open to atomics. -/
def Member.sigOk (m : Member) (b : Buf) : Bool := decide (m.sigOff + 4 ≤ b.extent) && decide (m.sigOff % 4 = 0) && b.pat

/-- Whether the Ox completes a member at once with ERR (R368). -/
def State.badMember (s : State) (m : Member) (b : Buf) (d : Nat) : Bool :=
  let z := (collSizes m.type).1
  let n := m.count * z
  let ne := bits m.control 11 8
  let out := fun off : Nat => decide (b.extent < off + n) || decide ((b.base + off) % z ≠ 0)
  let t := m.route.map fun e => bitN e 9
  let spare := (List.range 8).any fun k => decide (bits d (32 * k + 384 + 15) (32 * k + 384 + 10) ≠ 0)
  decide (bits m.control 31 13 ≠ 0) || decide (bits d 1023 640 ≠ 0) || spare || decide (m.kind = 3) || decide (8 ≤ m.type) ||
    decide (m.cop = 3) || ((collExact m.type || decide (m.kind = 2)) && decide (m.cop ≠ 0)) ||
    decide (m.nmem ≤ m.rank) || decide (m.tmo = 0) || decide (8 < ne) || (decide (ne = 0) && decide (1 < m.nmem)) ||
    (decide (0 < ne) && (decide ((t.filter id).length ≠ 1) || !t.getLast?.getD false)) ||
    m.route.any s.badEntry || out m.src || out m.dst ||
    (decide (m.src ≠ m.dst) && decide (m.src < m.dst + n) && decide (m.dst < m.src + n)) ||
    (m.sig && !m.sigOk b)

/-! ## Elements (R369, R372, R373) -/

/-- The 320-bit value and the marks of an exact state (R369). -/
def Exact.pack (x : Exact) : Nat :=
  wrap 320 x.value + b2n x.ninf * 2 ^ 320 + b2n x.pinf * 2 ^ 321 + b2n x.nan * 2 ^ 322

/-- An exact state from its bits. -/
def Exact.unpack (isFloat sat : Bool) (v : Nat) : Exact :=
  { key := 0, bank := 0, spilled := false, isFloat := isFloat, value := signed 320 v, nan := bitN v 322, pinf := bitN v 321, ninf := bitN v 320, count := 0,
    sat := sat }

/-- The format of a floating-point type. -/
def collFmt (type : Nat) : Fmt :=
  match type with
  | 1 => .bf16
  | 2 => .f16
  | _ => .f32

/-- The element that a source word gives. -/
def collElem (type v : Nat) : BitVec 384 :=
  BitVec.ofNat 384 (if collExact type then (Exact.openOn 0 0 (decide (type = 5)) (decide (type = 7)) v).pack else v)

/-- Comb of two elements (R372). -/
def collComb (type op x p : Nat) : Nat :=
  match type with
  | 0 | 1 | 2 =>
    match op with
    | 0 => (faddElem (collFmt type) 0 x p).1
    | 1 => (fminmax (collFmt type) false false x p).1
    | _ => (fminmax (collFmt type) true false x p).1
  | 3 | 4 =>
    let le := if type = 3 then decide (signed 32 x ≤ signed 32 p) else decide (x ≤ p)
    match op with
    | 0 => (x + p) % 2 ^ 32
    | 1 => if le then x else p
    | _ => if le then p else x
  | _ => (x % 2 ^ 320 + p % 2 ^ 320) % 2 ^ 320 + (bits x 322 320 ||| bits p 322 320) * 2 ^ 320

/-- The word that an element of a result is written as (R373). -/
def collWord (type v : Nat) : Nat :=
  if collExact type then (Exact.unpack (decide (type = 5)) (decide (type = 7)) v).bits else v

/-- A lone member's element: a NaN is made canonical (R375). -/
def collLocal (type v : Nat) : Nat :=
  if type ≤ 2 ∧ ((collFmt type).value v).isNan then (collFmt type).nanEnc else v

/-! ## The member at its origin -/

/-- A member by its name. -/
def State.member? (s : State) (m : Nat) : Option Member := s.members.find? fun x => x.id == m

/-- Changes a member. -/
def State.modMember (s : State) (m : Nat) (g : Member → Member) : State := { s with members := replaceBy (fun x => x.id == m) g s.members }

/-- A chunk leaves its origin for the hop of its first entry (R371); a lone member's chunk comes straight back (R375). -/
def State.sendChunk (s : State) (m : Member) (c : Nat) (words : List Nat) (err : Bool) : State :=
  let quiet := decide (m.kind = 2) && decide (m.rank ≠ 0)
  let lone := decide (m.route = [])
  let words := if quiet then [] else if lone then words.map (collLocal m.type) else words
  let p : CollPacket :=
    { id := s.nextId, collId := m.collId, chunk := c, rlo := m.rank, rhi := m.rank, type := m.type, op := m.cop, kind := m.kind,
      route := m.route, nel := words.length, err := err, ret := lone, payload := words.map (collElem m.type),
      hop := m.route.headD 0 / 2 ^ 16, written := 0, input := 4 * m.id, arrived := 0 }
  { s with nextId := s.nextId + 1, packets := s.packets ++ [p] }

/-- The elements of n bytes. -/
def elemsOf (z n v : Nat) : List Nat := (List.range n).map fun k => v / 2 ^ (8 * z * k) % 2 ^ (8 * z)

/-- The next chunk of a member is read, run by run, and sent; a failed line makes it carry ERR (R369, R441). -/
def Eng.chunk (g : Eng) (s : State) (m : Member) : Turn :=
  let o := g.o
  let c := o.pos - 1
  let z := (collSizes m.type).1
  let n := m.nel c
  let sent := fun (s : State) (words : List Nat) (err : Bool) => Turn.more (s.sendChunk m c words err) (o.pos + 1) 0 0
  if m.chunks ≤ c ∨ m.low + 16 < c then .waits s
  else if n = 0 ∨ (m.kind = 2 ∧ m.rank ≠ 0) then sent s [] false
  else
    let va := o.buf.va ((m.src + c * (collSizes m.type).2 * z + o.part : Nat) : Int)
    let r := min (n * z - o.part) (128 - va % 128)
    match g.read s va r o.buf (o.enc.sc = 0) with
    | .ok v s =>
      let got := o.got + v * 2 ^ (8 * o.part)
      if o.part + r < n * z then .more s o.pos (o.part + r) got else sent s (elemsOf z n got) false
    | .stop (.trap s _ _ _) => sent s (List.replicate n 0) true
    | .stop t => t

/-- The Ox begins: it reads the descriptor, run by run, and checks it (R368). Of one whose second half lies out of bounds it reads the
first, which holds the signal that the member still owes (R375). -/
def Eng.beginColl (g : Eng) (s : State) : Turn :=
  let o := g.o
  let start := fun (s : State) (d : Nat) (bad : Bool) =>
    let m := Member.of s.nextId g.t.id o.id s.now d
    let bad := bad || s.badMember m o.buf d
    Turn.more { s with nextId := s.nextId + 1, members := s.members ++ [{ m with errs := bad, atOnce := bad }] } 1 0 0
  let short := decide (o.buf.extent < o.val 0 + 128)
  let n := if short then 64 else 128
  let va := o.buf.va ((o.val 0 + o.part : Nat) : Int)
  let r := min (n - o.part) (128 - va % 128)
  match g.read s va r o.buf (o.enc.sc = 0) with
  | .ok v s =>
    let got := o.got + v * 2 ^ (8 * o.part)
    if o.part + r < n then .more s 0 (o.part + r) got else start s got short
  | .stop t => t

/-- The member of an operation. -/
def State.memberOf (s : State) (op : Nat) : Option Member := s.members.find? fun x => x.op == op

/-- Whether a member can complete (R368, R375, R474). -/
def Member.complete (m : Member) : Bool := m.atOnce || m.timedOut || decide (m.chunks ≤ m.low)

/-- A turn of a collective at its origin. -/
def Eng.coll (g : Eng) (s : State) : Turn :=
  if g.o.pos = 0 then g.beginColl s
  else match s.memberOf g.o.id with
    | some m => if m.complete then .waits s else g.chunk s m
    | none => .waits s

/-- COLLECTIVE_START (R368, R369, R374): the operation at the head of a team's coll queue begins, or sends on. -/
def execCollectiveStart (team : Nat) (s : State) : Host.Outcome State Fault Refusal := .next (s.engTurn team 6 Eng.coll)

/-! ## Completion (R375, R474) -/

/-- The pseudo-hop under which this package remembers packets that have left it, for their return. -/
def outside : Nat := 2 ^ 20

/-- Whether what a packet that left the package came from still awaits its result: the member, the hop that keeps a record of it, or
for the time that an Ox keeps one the link it arrived on. -/
def State.awaited (s : State) (r : CollRecord) : Bool :=
  r.inputs.any fun i => match i.1 % 4 with
    | 0 => s.members.any fun m => decide (m.id = i.1 / 4)
    | 1 => s.records.any fun x => decide (x.hop = i.1 / 4) && x.collId == r.collId && x.chunk == r.chunk
    | _ => decide (s.now < r.since + 2 ^ 30)

/-- The memory of packets whose results nothing awaits any more goes. -/
def State.dropStale (s : State) : State := { s with records := s.records.filter fun r => decide (r.hop ≠ outside) || s.awaited r }

/-- The member leaves its origin; what returns for it later is discarded. -/
def State.endMember (s : State) (m : Member) : State :=
  let s := { s with members := s.members.filter fun x => x.id != m.id }.dropStale
  let tower := ((s.team? m.team).map fun t => towerOf t.core).getD 0
  if m.timedOut then s.errorRecord 13 1 4 127 31 tower [(0x18, 4, m.collId), (0x1C, 4, m.rank), (0x20, 4, m.low)] else s

/-- The status word (R317). -/
def Member.status (m : Member) : Nat := 1 + 2 * b2n m.timedOut + 4 * b2n m.errs

/-- A release store at core scope sends a promotion tag to its line, if that is of this package (R153). -/
def Eng.tagAt (g : Eng) (s : State) (va : Nat) : State :=
  match g.placeAt s va with
  | some p => if p.pkg = s.pkg.pkgNo then s.addTag (lineOf p.key) (s.bankOf p) g.t.core else s
  | none => s

/-- A member completes: the status word is a release store at the operation's scope; then the signal, a release too (R118, R153, R315,
R375). A step that meets a missing page holds the operation there. -/
def Eng.collEnd (g : Eng) (m : Member) (s : State) : Turn :=
  let o := g.o
  let b := o.buf
  let s := if o.enc.sc = 0 then s else s.writeBackAll g.t.core
  let finish := fun s : State => Turn.done (s.progress g.t.launch |>.endMember m) []
  let signal := fun s : State =>
    if m.sig ∧ m.sigOk b then
      match g.rmw s (b.va m.sigOff) 4 b (fun v => (v + m.sigInc) % 2 ^ 32) (decide (o.enc.sc = 0)) with
      | .ok _ s => finish s
      | .stop (.trap s c d off) => .trap (s.endMember m) c d off
      | .stop t => t
    else finish s
  if o.mode = 1 then signal s
  else
    match g.write s (b.va (o.val 0)) 4 m.status b (o.enc.sc = 0) with
    | .ok _ s => signal ((if o.enc.sc = 0 then g.tagAt s (b.va (o.val 0)) else s).modOp g.t.id o.id fun o => { o with mode := 1 })
    | .stop (.trap s c d off) => .trap (s.endMember m) c d off
    | .stop t => t

/-- The completion of a member. A page that the signal misses leaves the status word written. -/
def State.completeMember (s : State) (m : Member) : State :=
  match s.team? m.team with
  | none => { s with members := s.members.filter fun x => x.id != m.id }
  | some t => match s.engHead t 6 with
    | none => s
    | some o =>
      if o.id ≠ m.op then s
      else
        s.endTurn t.id o t.core (s.ctxOf t) (Eng.collEnd ⟨t, s.ctxOf t, o⟩ m s)

/-- COLLECTIVE_COMPLETE (R375). -/
def execCollectiveComplete (m : Nat) (s : State) : Host.Outcome State Fault Refusal :=
  match s.member? m with
  | some x => if x.complete then .next (s.completeMember x) else .next s
  | none => .next s

/-- Whether a member's time has lapsed (R474). -/
def State.memberLate (s : State) (m : Member) : Bool := !m.complete && decide (m.started + m.tmo * 1024 ≤ s.now)

/-- COLLECTIVE_TIMEOUT (R474): the member completes with TO. -/
def execCollectiveTimeout (m : Nat) (s : State) : Host.Outcome State Fault Refusal :=
  match s.member? m with
  | some x =>
    if s.memberLate x then .next ((s.modMember m fun y => { y with timedOut := true }).completeMember { x with timedOut := true })
    else .next s
  | none => .next s

/-! ## Packets at a hop (R371, R372, R374) -/

/-- The packets that stand in a hop's combination for an identity and a chunk. -/
def State.combination (s : State) (hop collId chunk : Nat) : List CollPacket :=
  s.packets.filter fun p => !p.ret && p.hop == hop && p.collId == collId && p.chunk == chunk && decide (p.arrived ≠ 0)

/-- Whether a packet finds its combination open or room for it among the 256 of its hop (R374). -/
def State.hopRoom (s : State) (p : CollPacket) : Bool :=
  let open_ := ((s.packets.filter fun q => !q.ret && q.hop == p.hop && decide (q.arrived ≠ 0)).map fun q => (q.collId, q.chunk)).eraseDups
  open_.contains (p.collId, p.chunk) || decide (open_.length + (s.records.filter fun r => r.hop == p.hop).length < 256)

/-- Inserts a packet by rising RLO. -/
def insertRank (p : CollPacket) : List CollPacket → List CollPacket
  | [] => [p]
  | q :: qs => if p.rlo ≤ q.rlo then p :: q :: qs else q :: insertRank p qs

/-- The elements of two payloads combined. -/
def combLists (type op : Nat) : List (BitVec 384) → List (BitVec 384) → List (BitVec 384)
  | x :: xs, p :: ps => BitVec.ofNat 384 (collComb type op x.toNat p.toNat) :: combLists type op xs ps
  | xs, _ => xs

/-- Whether two packets' rank ranges overlap. -/
def rangesOverlap : List CollPacket → Bool
  | [] => false
  | p :: ps => (ps.any fun q => decide (p.rlo ≤ q.rhi) && decide (q.rlo ≤ p.rhi)) || rangesOverlap ps

/-- The payload of the K packets combined, in rank order (R372). -/
def combine (first : CollPacket) (ps : List CollPacket) : List (BitVec 384) :=
  if first.kind = 2 then ((ps.find? fun p => p.rlo == 0).map CollPacket.payload).getD []
  else match ps with
    | [] => []
    | p :: rest => rest.foldl (fun acc q => combLists first.type first.op acc q.payload) p.payload

/-- The K packets at a hop become one, which goes on or turns (R371). -/
def State.combineAt (s : State) (entry : Nat) (first : CollPacket) (ps : List CollPacket) : State :=
  let ids := ps.map CollPacket.id
  let s := { s with packets := s.packets.filter fun p => !ids.contains p.id }
  let hop := first.hop
  let payload := combine first ps
  let input := if bitN entry 8 then 4 * hop + 1 else if ps.length = 1 then first.input else 3
  let s := if bitN entry 8 then
      { s with
        nextId := s.nextId + 1,
        records := s.records ++ [{ id := s.nextId, hop := hop, collId := first.collId, chunk := first.chunk,
                                   inputs := ps.map fun p => (p.input, decide (p.rlo = 0)), since := s.now }] }
    else s
  let turn := bitN entry 9
  let p : CollPacket :=
    { first with
      id := s.nextId, rlo := minOf (ps.map CollPacket.rlo), rhi := (ps.map CollPacket.rhi).foldl max 0,
      err := ps.any CollPacket.err || rangesOverlap ps, payload := payload, nel := payload.length, route := first.route.tail,
      ret := turn, hop := if turn then hop else first.route.tail.headD 0 / 2 ^ 16, written := 0, input := input, arrived := 0 }
  { s with nextId := s.nextId + 1, packets := s.packets ++ [p] }

/-- Bits 511:128 of the header of a collective packet (R370). -/
def CollPacket.spec (p : CollPacket) : Nat :=
  p.collId % 2 ^ 32 + p.chunk % 2 ^ 24 * 2 ^ 32 + p.rlo % 2 ^ 16 * 2 ^ 56 + p.rhi % 2 ^ 16 * 2 ^ 72 + p.type % 16 * 2 ^ 88 + p.op % 4 * 2 ^ 92 +
    p.kind % 4 * 2 ^ 94 + p.route.length % 16 * 2 ^ 96 + p.nel % 2 ^ 12 * 2 ^ 100 + b2n p.ret * 2 ^ 112 + b2n p.err * 2 ^ 113 +
    packElems 32 p.route * 2 ^ 128

/-- Its payload: the elements in order, whole flits (R360, R369). -/
def CollPacket.flits (p : CollPacket) : List Byte :=
  let z := if collExact p.type then 48 else (collSizes p.type).1
  let bytes := p.payload.flatMap fun v => (List.range z).map fun i => BitVec.ofNat 8 (v.toNat / 2 ^ (8 * i))
  bytes ++ List.replicate ((64 - bytes.length % 64) % 64) 0

/-- The port that leads to a switch, by the port table (R363). -/
def State.portOfSwitch (s : State) (id : Nat) : Option Nat :=
  (List.range 18).find? fun n =>
    let e := s.pkg.ports.getD n 0
    e.getLsbD 0 && !e.getLsbD 5 && decide (bits e.toNat 15 8 = id)

/-- A collective packet goes out on a link: to a hop, or back the way that its contribution came; the destination package of one for a
switch, or going back, is free (log 20). -/
def State.emitColl (s : State) (p : CollPacket) : State :=
  let toSwitch := bitN p.hop 15
  let dpkg := if p.ret || toSwitch then s.pick (2 ^ 204 + s.wire.length) % 2 ^ 7 else bits p.hop 6 0
  let port := if p.ret then some (p.input / 4) else if toSwitch then s.portOfSwitch (bits p.hop 7 0) else none
  s.emit .collective false dpkg p.id (0, 0, 0) 0 p.spec p.flits port

/-- A packet leaves the package; the way back is remembered. -/
def State.packetLeaves (s : State) (p : CollPacket) : State :=
  let s := s.emitColl p
  { s with
    nextId := s.nextId + 1, packets := s.packets.filter fun q => q.id != p.id,
    records := s.records ++ [{ id := s.nextId, hop := outside, collId := p.collId, chunk := p.chunk,
                               inputs := [(p.input, decide (p.rlo = 0))], since := s.now }] }

/-- A contribution reaches its hop. -/
def State.packetAt (s : State) (p : CollPacket) : State :=
  match p.route with
  | [] => { s with packets := s.packets.filter fun q => q.id != p.id }
  | entry :: _ =>
    if !s.ownHop p.hop then s.packetLeaves p
    else if !s.hopRoom p then s
    else
      let s := { s with packets := replaceBy (fun q => q.id == p.id) (fun q => { q with arrived := s.now + 1 }) s.packets }
      let ps := (s.combination p.hop p.collId p.chunk).foldr insertRank []
      if ps.length < entry % 2 ^ 8 then s
      else match ps with
        | first :: _ => s.combineAt entry first ps
        | [] => s

/-- COLLECTIVE_PACKET (R371). -/
def execCollectivePacket (p : Nat) (s : State) : Host.Outcome State Fault Refusal :=
  match s.packets.find? fun q => q.id == p with
  | some q => if !q.ret ∧ q.arrived = 0 then .next (s.packetAt q) else .next s
  | none => .next s

/-! ## The return path (R373) -/

/-- A result goes to every input that a hop has recorded, and the record is freed. -/
def State.replicate (s : State) (p : CollPacket) (r : CollRecord) : State :=
  let s := { s with
    packets := s.packets.filter fun q => q.id != p.id, records := s.records.filter fun x => x.id != r.id }
  r.inputs.foldl (fun s i =>
    let bare := decide (p.kind = 1) && !i.2
    let q : CollPacket :=
      { p with id := s.nextId, input := i.1, nel := if bare then 0 else p.nel, payload := if bare then [] else p.payload }
    { s with nextId := s.nextId + 1, packets := s.packets ++ [q] }) s

/-- A chunk has returned to its member. -/
def Member.received (m : Member) (chunk : Nat) (err : Bool) : Member :=
  let done := chunk :: m.doneChunks
  let low := ((List.range (m.chunks + 1)).find? fun c => decide (m.low ≤ c) && !done.contains c).getD m.chunks
  { m with low := low, doneChunks := done.filter fun c => decide (low ≤ c), errs := m.errs || err }

/-- One run of a result chunk is written to DST; its last makes the chunk received, and a failed line makes it carry ERR (R441). -/
def Eng.landChunk (g : Eng) (m : Member) (p : CollPacket) (s : State) : Turn :=
  let o := g.o
  let z := (collSizes m.type).1
  let n := min p.nel (m.nel p.chunk)
  let landed := fun (s : State) (err : Bool) =>
    let s := { s with packets := s.packets.filter fun q => q.id != p.id }
    Turn.more (s.modMember m.id fun m => m.received p.chunk err) o.pos o.part o.got
  if p.err ∨ n ≤ p.written ∨ (m.kind = 1 ∧ m.rank ≠ 0) then landed s p.err
  else
    let va := o.buf.va ((m.dst + (p.chunk * (collSizes m.type).2 + p.written) * z : Nat) : Int)
    let r := min (n - p.written) ((128 - va % 128) / z)
    let v := packElems (8 * z) (((p.payload.drop p.written).take r).map fun e => collWord m.type e.toNat)
    match g.write s va (r * z) v o.buf (o.enc.sc = 0) with
    | .ok _ s =>
      if p.written + r < n then
        Turn.more { s with packets := replaceBy (fun q => q.id == p.id) (fun q => { q with written := q.written + r }) s.packets }
          o.pos o.part o.got
      else landed s false
    | .stop (.trap s _ _ _) => landed s true
    | .stop t => t

/-- A result packet on its way back: at a hop, at its member, or out of the package on the link that its contribution came by. -/
def State.packetBack (s : State) (p : CollPacket) : State :=
  let gone := { s with packets := s.packets.filter fun q => q.id != p.id }
  match p.input % 4 with
  | 0 => match s.member? (p.input / 4) with
    | none => gone
    | some m =>
      if m.complete then gone
      else match s.team? m.team with
        | none => gone
        | some t => match s.engHead t 6 with
          | none => s
          | some o => if o.id ≠ m.op then s else s.endTurn t.id o t.core (s.ctxOf t) (Eng.landChunk ⟨t, s.ctxOf t, o⟩ m p s)
  | 1 => match s.records.find? fun r => r.hop == p.input / 4 && r.collId == p.collId && r.chunk == p.chunk with
    | some r => s.replicate p r
    | none => gone
  | 2 => gone.emitColl p
  | _ => gone

/-- COLLECTIVE_RETURN (R373). -/
def execCollectiveReturn (p : Nat) (s : State) : Host.Outcome State Fault Refusal :=
  match s.packets.find? fun q => q.id == p with
  | some q => if q.ret then .next (s.packetBack q) else .next s
  | none => .next s

/-! ## Old combinations and records (R475) -/

/-- Whether a packet or a record of an Ox has waited 2^30 cycles. -/
def State.combinationOld (s : State) (c : Nat) : Bool :=
  (s.records.any fun r => r.id == c && decide (r.hop ≠ outside) && decide (r.since + 2 ^ 30 ≤ s.now)) ||
    s.packets.any fun p => p.id == c && !p.ret && decide (p.arrived ≠ 0) && decide (p.arrived - 1 + 2 ^ 30 ≤ s.now)

/-- COMBINATION_TIMEOUT (R475): the record of a name, or the combination that a packet of that name opened, is freed with the
packets held there. -/
def execCombinationTimeout (c : Nat) (s : State) : Host.Outcome State Fault Refusal :=
  if !s.combinationOld c then .next s
  else
    let report := fun (s : State) (collId hop : Nat) => s.errorRecord 13 1 4 127 31 (bits hop 8 7) [(0x18, 4, collId), (0x1C, 4, 0xFFFF)]
    match s.records.find? fun r => r.id == c with
    | some r => .next (report ({ s with records := s.records.filter fun x => x.id != c }.dropStale) r.collId r.hop)
    | none => match s.packets.find? fun p => p.id == c with
      | some p =>
        let ids := (s.combination p.hop p.collId p.chunk).map CollPacket.id
        .next (report { s with packets := s.packets.filter fun q => !ids.contains q.id } p.collId p.hop)
      | none => .next s

end Sys2Proof.Machine
end

