-- ==== Sys2Proof/Machine/Zunos.lean ====
section
/-! DEFINITION. Packets that arrive on a Zunos port (R360, R364, R370). The manual gives the type-specific header bits of
collective packets alone; what those of the other types would fix is free (log 20). -/

namespace Sys2Proof.Machine

/-- Bits hi:lo of a packet's header. -/
def packetBits (p : Packet) (hi lo : Nat) : Nat := bits p.header.toNat hi lo

/-- Whether a packet is discarded: a reserved TYPE or VIEW, or more payload flits than 24 (R360). -/
def packetReserved (p : Packet) : Bool := decide (8 ≤ packetBits p 3 0) || decide (24 < packetBits p 29 25) || decide (packetBits p 111 110 = 3)

/-- Counts an event of a link, by its port. -/
def State.countLink (s : State) (port : Nat) : State :=
  s.modPkg fun p => { p with errCounts := SMap.set 0 p.errCounts (2 ^ 40 + port) (SMap.get 0 p.errCounts (2 ^ 40 + port) + 1) }

/-- The storage key of byte i from the packet's address. -/
def packetKey (p : Packet) (i : Nat) : Nat := (placeOf (packetBits p 111 110) (packetBits p 113 112) (packetBits p 109 64 + i)).key

/-- The bits of a byte that a remote access writes at its home, those enabled (R146); one of a lost line is not written (R465). -/
def State.remoteBits (s : State) (key enable v : Nat) : State :=
  if s.lostLine (lineOf key) then s
  else (List.range 8).foldl (fun s b => if bitN enable b then s.homeWriteBits key b 1 (v / 2 ^ b) else s) s

/-- A byte that a remote access writes. -/
def State.remoteByte (s : State) (key v : Nat) : State := if s.lostLine (lineOf key) then s else s.homeWrite key 1 v

/-- A write that a standby's partner has sent may be that of its heartbeat counter, which lies at an address of the driver's: free
(R406; log 88). -/
def State.hearPair (s : State) (p : Packet) : State :=
  match s.pkg.pair with
  | some (partner, 1) =>
    if packetBits p 11 5 = partner ∧ s.pick 4194303 % 2 = 1 then s.modPkg fun k => { k with pairBeat := s.now } else s
  | _ => s

/-- A write: which bits of the payload are enabled is free; FP6 and FP4 stores enable part of a byte (R120, R146). -/
def State.remoteWrite (s : State) (p : Packet) : State :=
  (List.range (64 * packetBits p 29 25)).foldl (fun t i =>
    match s.pick (4194304 + i) % 256 with
    | 0 => t
    | 255 => t.remoteByte (packetKey p i) (p.payload.getD i 0).toNat
    | m => t.remoteBits (packetKey p i) m (p.payload.getD i 0).toNat) s

/-- The answer to a request goes back to the package that sent it, under its tag, in the adaptive class (R360, R361). -/
def State.respond (s : State) (p : Packet) (k : Wire) (payload : List Byte) : State :=
  s.emit k false (packetBits p 11 5) (packetBits p 63 32) (0, 0, 0) 0 s.freeSpec payload

/-- A read: its home materialises what it touches (R113). How many bytes of the line it reads is free (log 20); the response carries
them from the address on. -/
def State.remoteRead (s : State) (p : Packet) : State :=
  let n := 1 + s.pick 4194304 % (128 - packetBits p 109 64 % 128)
  if s.lostLine (lineOf (packetKey p 0)) then s.respond p .response s.freePayload
  else
    let (v, s) := s.homeRead (packetKey p 0) n
    s.respond p .response ((List.range (64 * ((n + 63) / 64))).map fun i => BitVec.ofNat 8 (v / 2 ^ (8 * i)))

/-- A read-modify-write or a signal: the new bytes of the word are free. -/
def State.remoteRmw (s : State) (p : Packet) (n : Nat) : State :=
  let room := min n (128 - packetBits p 109 64 % 128)
  (List.range room).foldl (fun t i => t.remoteByte (packetKey p i) (s.pick (4194304 + i) % 256)) s

/-- An active message from another package: its core, launch, handler, sender and number of words are free; its words are
those of the payload (R306, R307). -/
def State.remoteMessage (s : State) (p : Packet) : State :=
  let ls := s.launches.filter fun l => decide (l.handlers ≠ []) && decide (l.outcome = none)
  match ls[s.pick 4194304 % ls.length]? with
  | none => s
  | some l =>
    let n := s.pick 4194305 % 17
    let core := s.pick 4194306 % 2304
    if !s.handlerRoom (s.deliveryCore core) then s
    else
      let m : AmMsg :=
        { id := s.nextId, core := core, launch := l.id, handler := s.pick 4194307 % l.handlers.length,
          payload := (List.range n).map fun k => BitVec.ofNat 32 (leN ((p.payload.drop (4 * k)).take 4)),
          sender := BitVec.ofNat 32 (s.pick 4194308 % 4096 + packetBits p 11 5 * 2 ^ 12),
          fibre := 2 ^ 64 + 2 ^ 7 * s.pick 4194309 + packetBits p 11 5 }
      { s with nextId := s.nextId + 1, msgs := s.msgs ++ [m] }.modLaunch l.id fun l => { l with spawned := l.spawned + 1 }

/-- The elements of a collective packet's payload (R369, R370). -/
def packetElems (p : Packet) : List (BitVec 384) :=
  let z := if collExact (packetBits p 219 216) then 48 else (collSizes (packetBits p 219 216)).1
  (List.range (min (packetBits p 239 228) (64 * packetBits p 29 25 / z))).map fun k => BitVec.ofNat 384 (leN ((p.payload.drop (z * k)).take z))

/-- A collective packet from its header (R370). -/
def packetColl (p : Packet) (id input : Nat) : CollPacket :=
  let route := (List.range (min 8 (packetBits p 227 224))).map fun k => packetBits p (287 + 32 * k) (256 + 32 * k)
  { id := id, collId := packetBits p 159 128, chunk := packetBits p 183 160, rlo := packetBits p 199 184, rhi := packetBits p 215 200,
    type := packetBits p 219 216, op := packetBits p 221 220, kind := packetBits p 223 222, route := route, nel := (packetElems p).length,
    err := bitN p.header.toNat 241, ret := bitN p.header.toNat 240, payload := packetElems p, hop := route.headD 0 / 2 ^ 16, written := 0,
    input := input, arrived := 0 }

/-- The packet that left this package whose result a result packet is: of several of one identity and chunk, for KIND 1 the one that
included rank 0 when the result has elements, and another when it has none (R373). -/
def State.returnTo (s : State) (c : CollPacket) : Option CollRecord :=
  let rs := s.records.filter fun r => r.hop == outside && r.collId == c.collId && r.chunk == c.chunk && s.awaited r
  let fits := fun r : CollRecord => decide (c.kind ≠ 1) || ((r.inputs.any Prod.snd) == decide (c.nel ≠ 0))
  match rs.find? fits with
  | some r => some r
  | none => rs.head?

/-- A collective packet arrives: a contribution at its hop here; a result goes back the way its contribution left. -/
def State.remoteColl (s : State) (p : Packet) : State :=
  let c := packetColl p s.nextId (4 * p.port + 2)
  if !c.ret then
    if c.route ≠ [] ∧ s.ownHop c.hop then { s with nextId := s.nextId + 1, packets := s.packets ++ [c] } else s
  else match s.returnTo c with
    | none => s
    | some r => { s with nextId := s.nextId + 1, packets := s.packets ++ [c] }.replicate c r

/-- ZUNOS_PACKET (R360). A request is answered; a response or an acknowledgement is not awaited by anything here (log 8). -/
def execZunosPacket (p : Packet) (s : State) : Host.Outcome State Fault Refusal :=
  if packetReserved p then .next (s.countLink p.port)
  else if packetBits p 18 12 ≠ s.pkg.pkgNo then .next s
  else
    let home := decide (packetBits p 109 103 = s.pkg.pkgNo)
    match packetBits p 3 0 with
    | 0 => .next (if home then s.remoteRead p else s)
    | 1 => .next (if home then ((s.remoteWrite p).hearPair p).respond p .ack [] else s)
    | 2 => .next (if home then (s.remoteRmw p 16).respond p .response s.freePayload else s)
    | 5 => .next (s.remoteMessage p)
    | 6 => .next (s.remoteColl p)
    | 7 => .next (if home then (s.remoteRmw p 4).respond p .ack [] else s)
    | _ => .next s

end Sys2Proof.Machine
end

