-- ==== Sys2Proof/Machine/SaveArea.lean ====
section
/-! DEFINITION. Team save areas: their layout, writing one, checking one and reading one back (R86 to R89, R452, R453). What
the manual gives no layout for stays with the saved team (log 21). -/

namespace Sys2Proof.Machine

/-! ## Layout (R87) -/

/-- A size rounded up to a multiple of 128. -/
def up128 (n : Nat) : Nat := (n + 127) / 128 * 128

/-- The sizes of the seven areas, in table order. -/
def areaSizes (nacc scratch slots groups : Nat) : List Nat :=
  [16 * 2112, nacc * 16384, scratch, scratch / 32, slots * 65536, groups * 2048, 6144]

/-- The offsets of the areas, each a multiple of 128, after the header of 4 KiB. -/
def areaOffsets : Nat → List Nat → List Nat
  | _, [] => []
  | at_, n :: ns => at_ :: areaOffsets (at_ + up128 n) ns

/-- The largest size of a kernel's save area. -/
def Kernel.saveSize (k : Kernel) : Nat :=
  4096 + ((areaSizes (k.field 54 50) (4096 * k.field 40 32) (k.field 5 0 / max 1 (k.field 8 6)) (k.field 5 0)).map up128).foldl (· + ·) 0

/-- Something that is written at an offset of an area: n bytes of a value. -/
structure Put where
  off : Nat
  n : Nat
  v : Nat
deriving DecidableEq, Repr

/-- The bytes of a sparse map from a key on, as one number. -/
def mapBytes (m : SMap Byte) (n : Nat) : Nat := spadRead m 0 n

/-! ## Images of a team (R87, R88) -/

/-- The 16 bytes of a circular buffer's descriptor (R135). -/
def CBuf.pack (c : CBuf) : Nat :=
  c.base + c.sz * 2 ^ 32 + c.ns * 2 ^ 48 + c.wp * 2 ^ 64 + c.rp * 2 ^ 72 + c.filled * 2 ^ 80 + c.free * 2 ^ 88 + c.gp * 2 ^ 96

/-- The state value of a fibre. -/
def Fibre.stateCode (f : Fibre) : Nat :=
  if f.run = .ended then 4 else if f.handler then 2 else if f.run = .barrier then 1 else if f.run = .held then 3 else 0

/-- A fibre context (R88). -/
def Fibre.context (f : Fibre) (at_ : Nat) : List Put :=
  let w := fun (off v : Nat) => (⟨at_ + off, 4, v⟩ : Put)
  ((List.range 32).map fun L => w (4 * L) (f.ip L).toNat) ++
    [w 0x80 f.live.toNat, w 0x84 (f.waiting ||| f.reserved).toNat, w 0x88 (f.stateCode + f.role * 16),
     w 0x8C (f.winBase + f.winSize * 2 ^ 16), w 0x90 f.sgw.toNat, w 0x94 f.fpflags.toNat, w 0x98 f.rmode.toNat,
     w 0x9C f.rngmode.toNat, w 0xA0 f.allot, ⟨at_ + 0xB0, 16, if f.handler then f.trapinfo.pack else 0⟩] ++
    ((List.range 32).map fun L => w (0xC0 + 4 * L) (SMap.get 0 f.preIps L).toNat) ++ [w 0x140 f.preLive.toNat] ++
    ((List.range 64).map fun p => w (0x200 + 4 * p) (if p = 0 then 0xFFFFFFFF else (SMap.get 0 f.preds p).toNat)) ++
    ((List.range f.allot).map fun k => w (0x300 + 4 * k) (SMap.get 0 f.uregs k).toNat) ++ [⟨at_ + 0x500, 0x300, 0⟩]

/-- The registers of a slot's image: up to the end of every window of its fibres, in eights. -/
def imageRegs (fs : List Fibre) : Nat := ((fs.map fun f => f.winBase + f.winSize).foldl max 0 + 7) / 8 * 8

/-- The image of a slot. -/
def Team.slotImage (t : Team) (fs : List Fibre) (slot at_ : Nat) : List Put :=
  (List.range (imageRegs (fs.filter fun f => f.slot == slot))).flatMap fun q =>
    (List.range 32).map fun L => ⟨at_ + 128 * q + 4 * L, 4, (SMap.get 0 t.pool (poolKey slot q + L)).toNat⟩

/-- OP of an engine operation. -/
def EngKind.op (o : EngOp) : Nat :=
  match o.kind with
  | .cp => 0x340 | .cpg => 0x341 | .cps => 0x342 | .cp2d => 0x343 | .cpcb => 0x344 | .cpw => 0x345
  | .mma => 0x300 | .azero => 0x303 | .adrain => 0x304 | .aswap => 0x305 | .ald => 0x306 | .ast => 0x307 | .aflag => 0x308
  | .tld => 0x309 | .tst => 0x30A | .tcvt => 0x30B | .bld => 0x30C | .bldBc => 0x30D
  | .bwst => 0x360 | .bwbar => 0x362
  | .am => 0x380 | .put => 0x381 | .putsig => 0x382 | .get => 0x383 | .app => 0x384 | .coll => 0x385

/-- The place of what an entry of a queue image holds besides the instruction word in its first 20 bytes: the line reached at byte 24, the
queues it was held behind at byte 32, and its first seven operand values from byte 36 on (PRESUMED, log 21). -/
def imageLine : Nat := 192
/-- The mask of the queues. -/
def imageMask : Nat := 256
/-- The operand values. -/
def imageVals : Nat := 288

/-- A queue image: for each saved operation its word, its operand values, the line it has reached, and the queues it was held behind. -/
def Team.queueImage (t : Team) (at_ : Nat) : List Put :=
  (List.range 6).flatMap fun q => (List.range 16).map fun k =>
    let here := at_ + 1024 * q + 64 * k
    match (t.queue (q + 1))[k]? with
    | none => ⟨here, 64, 0⟩
    | some o =>
      let behind := (List.range 7).foldl (fun m b =>
        if (t.queues.any fun p => p.queue == b && o.after.contains p.id) then m + 2 ^ b else m) 0
      ⟨here, 64, (Enc.toBits (EngKind.op o) o.enc).toNat + o.reached * 2 ^ imageLine + behind * 2 ^ imageMask +
        packElems 32 (o.vals.take 7) * 2 ^ imageVals⟩

/-- The arrivals of a barrier, a bit for each group. -/
def arrivalMask (fs : List Fibre) (perSlot : Nat) (b : Barr) : Nat :=
  fs.foldl (fun m f => if b.arrived.contains f.id then m + 2 ^ (f.slot * perSlot + f.role) else m) 0

/-- Everything that a save area holds of a team (R87). -/
def Team.image (t : Team) (fs : List Fibre) : List Put :=
  let w := fun (off v : Nat) => (⟨off, 4, v⟩ : Put)
  let slots := t.groups / max 1 t.perSlot
  let offs := areaOffsets 4096 (areaSizes t.nacc t.scratch slots t.groups)
  let o := fun k => offs.getD k 0
  let lease := t.leaseLeft + (if t.lease = .held then 2 ^ 31 else 0)
  ⟨0, 4096, 0⟩ ::
  [w 0 1, w 4 t.tx.toNat, w 8 t.ty.toNat, w 0xC t.tz.toNat, w 0x10 t.gx.toNat, w 0x14 t.gy.toNat, w 0x18 t.gz.toNat, w 0x1C t.crank,
   w 0x20 t.groups, w 0x24 t.perSlot, w 0x28 t.nacc, w 0x2C t.scratch, ⟨0x30, 8, t.locl.toNat⟩, ⟨0x38, 8, t.locr.toNat⟩,
   w 0x240 lease] ++
  ((List.range 16).map fun a => w (0x40 + 4 * a) (SMap.get ⟨[], 0⟩ t.accs a).flags.toNat) ++
  ((List.range 8).map fun b => w (0x80 + 4 * b) (arrivalMask fs t.perSlot (barrAt t.bars b))) ++ [w 0xA0 (arrivalMask fs t.perSlot t.cbar)] ++
  ((List.range 16).map fun b => ⟨0x100 + 16 * b, 16, (t.cbuf b).pack⟩) ++
  ((List.range 7).map fun k => w (0x200 + 4 * k) (o k)) ++
  ((List.range 1024).map fun g => ⟨o 0 + 2112 * (g / 64) + 33 * (g % 64), 33, (SMap.get 0 t.tiles g).toNat⟩) ++
  ((List.range t.nacc).flatMap fun a => (List.range 4096).map fun i =>
    w (o 1 + 16384 * a + 4 * i) (SMap.get 0 (SMap.get ⟨[], 0⟩ t.accs a).elems i).toNat) ++
  [⟨o 2, t.scratch, mapBytes t.spad t.scratch⟩,
   ⟨o 3, t.scratch / 32, (t.fe.map fun p => if p.2 then 2 ^ p.1 else 0).foldl (· + ·) 0⟩] ++
  ((List.range slots).flatMap fun j => t.slotImage fs j (o 4 + 65536 * j)) ++
  (fs.flatMap fun f => f.context (o 5 + 2048 * (f.slot * t.perSlot + f.role))) ++
  t.queueImage (o 6)

/-- Writes a save area at a virtual address of a context. -/
def State.writeArea (s : State) (ctx area : Nat) (ps : List Put) : State :=
  ps.foldl (fun s p => (s.virtWrite ctx (area + p.off) p.n p.v).2) s

/-! ## Reading one back (R89, R453) -/

/-- n bytes of an area; none when a byte meets a walk result. -/
def State.areaRead (s : State) (ctx area off n : Nat) : Option Nat × State := s.virtRead ctx (area + off) n

/-- A run of an area as a number that bytes can be taken from. -/
structure Bytes where
  v : Nat
deriving DecidableEq, Repr

/-- n bytes from an offset. -/
def Bytes.at (b : Bytes) (off n : Nat) : Nat := b.v / 2 ^ (8 * off) % 2 ^ (8 * n)

/-- A word from an offset. -/
def Bytes.w (b : Bytes) (off : Nat) : Word := BitVec.ofNat 32 (b.at off 4)

/-- Reads a sparse map back. -/
def mapOf {α : Type} [DecidableEq α] (d : α) (n : Nat) (g : Nat → α) : SMap α := SMap.setLanes d [] 0 (List.range n) g

/-- The 128 bits of `%trapinfo` taken apart (R83). -/
def TrapInfo.unpack (v : Nat) : TrapInfo :=
  ⟨BitVec.ofNat 8 v, BitVec.ofNat 3 (bits v 10 8), BitVec.ofNat 16 (bits v 31 16), BitVec.ofNat 32 (bits v 63 32),
   BitVec.ofNat 32 (bits v 95 64), BitVec.ofNat 32 (bits v 127 96)⟩

/-- A descriptor read back; the order of claims is the saved team's. -/
def CBuf.unpack (old : CBuf) (v : Nat) : CBuf :=
  { old with
    base := bits v 19 0, sz := bits v 43 32, ns := bits v 55 48, wp := bits v 71 64, rp := bits v 79 72, filled := bits v 87 80,
    free := bits v 95 88, gp := bits v 103 96 }

/-- Whether a fibre context passes the checks of R453. -/
def contextOk (c : Bytes) : Bool :=
  decide (c.at 0x88 4 % 16 ≤ 4) && windowOk (c.at 0x8C 4 % 512) (bits (c.at 0x8C 4) 24 16) &&
    decide (c.at 0xA0 4 % 8 = 0) && decide (8 ≤ c.at 0xA0 4) && decide (c.at 0xA0 4 ≤ 128)

/-- A fibre read back from its context (R88, R89). A held fibre issues its instruction again (R86, R445); reserved bits of its special
registers read as zero (R7), and a trap that a parked entry has left stands (R439). -/
def Fibre.fromContext (f : Fibre) (c : Bytes) (now : Nat) : Fibre :=
  let code := c.at 0x88 4 % 16
  let allot := c.at 0xA0 4
  { f with
    run := if code = 4 then .ended else if code = 1 then .barrier else .ready,
    waits := if code = 1 then f.waits else .none, handler := decide (code = 2),
    ips := mapOf 0 32 fun L => c.w (4 * L), live := c.w 0x80, waiting := c.w 0x84, reserved := 0,
    winBase := c.at 0x8C 4 % 512, winSize := bits (c.at 0x8C 4) 24 16, allot := allot, sgw := c.w 0x90, fpflags := c.w 0x94 &&& 31,
    rmode := c.w 0x98 &&& 3, rngmode := c.w 0x9C &&& 3,
    trapinfo := if code = 2 then TrapInfo.unpack (c.at 0xB0 16) else ⟨0, 0, 0, 0, 0, 0⟩,
    preIps := mapOf 0 32 fun L => c.w (0xC0 + 4 * L), preLive := c.w 0x140,
    preds := SMap.set 0 (mapOf 0 64 fun p => c.w (0x200 + 4 * p)) 0 0, uregs := mapOf 0 allot fun k => c.w (0x300 + 4 * k),
    notBefore := now, since := now, hazards := [], winNext := none }

/-- The queue of an engine operation's OP, when it is one (R162). -/
def queueOfOp (op : Nat) : Nat :=
  if op ∈ [0x340, 0x341, 0x342, 0x343, 0x344] then 1
  else if op ∈ [0x300, 0x303, 0x304, 0x305, 0x306, 0x307, 0x308, 0x309, 0x30A, 0x30B] then 2
  else if op ∈ [0x30C, 0x30D] then 3
  else if op = 0x360 then 4
  else if op ∈ [0x380, 0x381, 0x382, 0x383, 0x384] then 5
  else if op = 0x385 then 6
  else 0

/-- The limits that a word of a queue image is checked against: those of any window and allotment, and the kernel's
accumulators. -/
def Kernel.imageLimits (k : Kernel) : Limits := ⟨256, 128, if k.llen = 0 then 16 else k.field 54 50⟩

/-- Whether an entry of a queue image is unused, or holds an instruction word that passes R169, of that queue (R453). -/
def queueEntryOk (q v : Nat) (l : Limits) : Bool :=
  let w := BitVec.ofNat 160 v
  decide (v = 0) || (decide (queueOfOp (opOf w) = q) && (decodeWord w).modOk && decide ((decodeWord w).fault l = none))

/-- The checks of R453 on an area of a kernel. -/
def areaOk (k : Kernel) (b : Bytes) : Bool :=
  let o := fun i => b.at (0x200 + 4 * i) 4
  decide (b.at 0 4 = 1) && decide (b.at 0x20 4 = k.field 5 0) && decide (b.at 0x24 4 = k.field 8 6) &&
    decide (b.at 0x28 4 = k.field 54 50) && decide (b.at 0x2C 4 = 4096 * k.field 40 32) &&
    ((List.range 6).all fun q => (List.range 16).all fun e => queueEntryOk (q + 1) (b.at (o 6 + 1024 * q + 64 * e) 64) k.imageLimits) &&
    ((List.range (k.field 5 0)).all fun i => contextOk ⟨b.at (o 5 + 2048 * i) 2048⟩)

/-- An operand value read back: the area's word where it was changed there. -/
def valBack (old w : Nat) : Nat := if old % 2 ^ 32 = w then old else w

/-- The operations of a queue as an area gives them back, each with its mask: the word, the operand values and the line of each used
entry; what an entry has no room for stays with the saved team (log 21). A line that it was held on is walked again (R445), and what it
had in stock is read again. -/
def queueBack (b : Bytes) (off q : Nat) (os : List EngOp) : List (EngOp × Nat) :=
  (os.zip (List.range os.length)).filterMap fun p =>
    let o := p.1
    let v := b.at (off + 1024 * (q - 1) + 64 * p.2) 64
    let vals := ((o.vals.take 7).zip (List.range 7)).map fun x => valBack x.1 (bits v (imageVals + 32 * x.2 + 31) (imageVals + 32 * x.2))
    if v = 0 then none
    else some ({ o with
      enc := Enc.ofBits (BitVec.ofNat 160 v), vals := vals ++ o.vals.drop 7, held := none, got := if o.rowHeld then 0 else o.got, stock := 0,
      stocked := 0, reached := bits v (imageLine + 56) imageLine }, bits v (imageMask + 6) imageMask)

/-- The engine queues of a team as its area gives them back: in the order of issue, each operation behind the restored ones of the queues
of its mask that went before it (R166). -/
def queuesBack (b : Bytes) (off : Nat) (t : Team) : List EngOp :=
  let back := (List.range 6).flatMap fun q => queueBack b off (q + 1) (t.queue (q + 1))
  let behind := fun p : EngOp × Nat => ((back.filter fun r => bitN p.2 r.1.queue && decide (r.1.id < p.1.id)).map fun r => r.1.id)
  let engines := back.map fun p => { p.1 with after := behind p }
  (t.queues.filterMap fun o => engines.find? fun p => p.id == o.id) ++ t.queue 7

/-- The arrivals of a barrier read back from their mask. -/
def arrivalsBack (fs : List Fibre) (perSlot mask : Nat) (old : Barr) : Barr :=
  ⟨old.phase, (fs.filter fun f => bitN mask (f.slot * perSlot + f.role)).map Fibre.id⟩

/-- A team read back from its area (R87, R89, R353): it enters Waiting with its saved count when it held the lease. -/
def SavedTeam.teamBack (x : SavedTeam) (b : Bytes) : Team :=
  let t := x.team
  let o := fun i => b.at (0x200 + 4 * i) 4
  let slots := t.groups / max 1 t.perSlot
  let lease := b.at 0x240 4
  let wasHeld := bitN lease 31
  { t with
    tx := b.w 4, ty := b.w 8, tz := b.w 0xC, gx := b.w 0x10, gy := b.w 0x14, gz := b.w 0x18, crank := b.at 0x1C 4,
    locl := BitVec.ofNat 64 (b.at 0x30 8 + x.addL), locr := BitVec.ofNat 64 (b.at 0x38 8 + x.addR),
    accs := mapOf ⟨[], 0⟩ 16 fun a =>
      ⟨if a < t.nacc then mapOf 0 4096 fun i => b.w (o 1 + 16384 * a + 4 * i) else [], BitVec.ofNat 4 (b.at (0x40 + 4 * a) 4)⟩,
    cbufs := mapOf CBuf.blank 16 fun i => (t.cbuf i).unpack (b.at (0x100 + 16 * i) 16),
    tiles := mapOf 0 1024 fun g => BitVec.ofNat 264 (b.at (o 0 + 2112 * (g / 64) + 33 * (g % 64)) 33),
    spad := mapOf 0 t.scratch fun i => BitVec.ofNat 8 (b.at (o 2 + i) 1),
    fe := mapOf false (t.scratch / 4) fun w => bitN (b.at (o 3 + w / 8) 1) (w % 8),
    pool := (List.range slots).foldl (fun m j =>
      let n := 32 * imageRegs (x.fibres.filter fun f => f.slot == j)
      SMap.setLanes 0 m (poolKey j 0) (List.range n) fun i => b.w (o 4 + 65536 * j + 4 * i)) [],
    bars := (List.range 8).foldl (fun m i =>
      SMap.set ⟨0, []⟩ m i (arrivalsBack x.fibres t.perSlot (b.at (0x80 + 4 * i) 4) (barrAt t.bars i))) t.bars,
    cbar := arrivalsBack x.fibres t.perSlot (b.at 0xA0 4) t.cbar,
    queues := queuesBack b (o 6) t,
    lease := if wasHeld then .waiting else .none, leaseLeft := lease % 2 ^ 31, restored := true }

/-- The fibres read back from the area of their team. -/
def SavedTeam.fibresBack (x : SavedTeam) (b : Bytes) (now : Nat) : List Fibre :=
  x.fibres.map fun f =>
    f.fromContext ⟨b.at (b.at 0x214 4 + 2048 * (f.slot * x.team.perSlot + f.role)) 2048⟩ now

end Sys2Proof.Machine
end

