-- ==== Sys2Proof/Machine/Reorder.lean ====
section
/-! DEFINITION. Teams that messages, records and batches start: handler teams (R307), the groups of a Hen (R69) and the batches
of a node (R59, R348). -/

namespace Sys2Proof.Machine

/-! ## Queued teams -/

/-- The vector registers of placed values, one list of words for each lane from lane 0 on: register k of lane L holds word k of
list L. -/
def placedVecs (n : Nat) (lanes : List (List Word)) : List RegWrite :=
  (List.range n).map fun k =>
    { cls := .vec, reg := k, lanes := maskWhere fun L => decide (L < lanes.length),
      vals := (List.range lanes.length).map fun L => (L, (lanes.getD L []).getD k 0) }

/-- Uniform registers placed from a number on. -/
def placedUnis (first : Nat) (ws : List Word) : List RegWrite :=
  (List.range ws.length).map fun k => { cls := .uni, reg := first + k, lanes := 1, vals := [(0, ws.getD k 0)] }

/-- A team of one core enters a distributor queue. -/
def State.queueTeam (s : State) (launch : Nat) (origin : Origin) (kernel : Nat) (level : Level) (placed : List RegWrite) (live : Mask) :
    State :=
  let q : QTeam :=
    { id := s.nextId, launch := launch, origin := origin, index := 0, kernel := kernel, level := level, cluster := 0,
      clusterSize := 0, crank := 0, placed := placed, live := live, restore := none, since := s.now }
  { s with nextId := s.nextId + 1, qteams := s.qteams ++ [q] }

/-- The lanes below n. -/
def lanesBelow (n : Nat) : Mask := maskWhere fun L => decide (L < n)

/-! ## Handlers of active messages (R307) -/

/-- Whether a message is the next of its sender fibre for its core, and finds room. -/
def State.deliverable (s : State) (m : AmMsg) : Bool :=
  let first := s.msgs.find? fun x => x.fibre == m.fibre && x.core == m.core
  (first.map AmMsg.id) == some m.id && decide (s.handlerCount (s.deliveryCore m.core) < 64)

/-- The team of a message: payload in s8 on, zeros up to s23, the sender's target word, the word count. -/
def State.startHandler (s : State) (m : AmMsg) (l : Launch) : State :=
  let pad := List.replicate (16 - m.payload.length) (0 : Word)
  let ws := m.payload ++ pad ++ [m.sender, BitVec.ofNat 32 m.payload.length]
  s.queueTeam m.launch (.handler m.fibre) (l.handlers.getD m.handler 0) (.core (s.deliveryCore m.core)) (placedUnis 8 ws) 0xFFFFFFFF

/-- AM_DELIVERY (R307). -/
def execAmDelivery (m : Nat) (s : State) : Host.Outcome State Fault Refusal :=
  match s.msgs.find? fun x => x.id == m with
  | none => .next s
  | some x =>
    if !s.deliverable x then .next s
    else
      let gone := { s with msgs := s.msgs.filter fun y => y.id != m }
      match s.launch? x.launch with
      | some l => if l.outcome.isSome then .next gone else .next (gone.startHandler x l)
      | none => .next gone

/-! ## The Hen (R69) -/

/-- The open keys of a Hen, each with its launch, lowest key first. -/
def Tower.openKeys (y : Tower) : List (Nat × Nat) :=
  let insert := fun (p : Nat × Nat) (ps : List (Nat × Nat)) =>
    (ps.filter fun q => q.1 < p.1 ∨ (q.1 = p.1 ∧ q.2 < p.2)) ++ [p] ++ ps.filter fun q => p.1 < q.1 ∨ (q.1 = p.1 ∧ p.2 < q.2)
  ((y.hen.map fun r => (r.key.toNat, r.launch)).eraseDups).foldr insert []

/-- The records of a key of a launch, oldest first. -/
def Tower.under (y : Tower) (key launch : Nat) : List HenRec := y.hen.filter fun r => decide (r.key.toNat = key) && r.launch == launch

/-- The open key with the most records; of equals, the lowest key. -/
def Tower.fullest (y : Tower) : Option (Nat × Nat) :=
  y.openKeys.foldl (fun best p => match best with
    | none => some p
    | some b => if (y.under b.1 b.2).length < (y.under p.1 p.2).length then some p else best) none

/-- Launches the records of a key as one group: payload in v0 to v15, the key in v16. -/
def State.launchKey (s : State) (tower key launch : Nat) : State :=
  let rs := (s.tower tower).under key launch
  let s := s.modTower tower fun y => { y with hen := y.hen.filter fun r => !(decide (r.key.toNat = key) && r.launch == launch) }
  match s.launch? launch with
  | none => s
  | some l =>
    (s.queueTeam launch .hen l.cont (.tower tower) (placedVecs 17 (rs.map fun r => r.payload ++ [r.key])) (lanesBelow rs.length)).modLaunch
      launch fun l => { l with spawned := l.spawned + 1 }

/-- A deposit: one that would exceed a capacity first launches the fullest key; the 32nd record of a key launches it. -/
def State.deposit (s : State) (tower : Nat) (r : HenRec) : State :=
  let y := s.tower tower
  let new := y.under r.key.toNat r.launch = []
  let s := if 8192 ≤ y.hen.length ∨ (new ∧ 1024 ≤ y.openKeys.length) then
      match y.fullest with
      | some p => s.launchKey tower p.1 p.2
      | none => s
    else s
  let s := s.modTower tower fun y => { y with hen := y.hen ++ [r] }
  if 32 ≤ ((s.tower tower).under r.key.toNat r.launch).length then s.launchKey tower r.key.toNat r.launch else s

/-- HEN_DEPOSIT (R69): the oldest record on its way to the Hen enters it. -/
def execHenDeposit (tower : Nat) (s : State) : Host.Outcome State Fault Refusal :=
  match (s.tower tower).deposits with
  | [] => .next s
  | r :: rs => .next ((s.modTower tower fun y => { y with deposits := rs }).deposit tower r)

/-- Whether a launch has live lanes left: in a team resident or saved, or in one that has still to start, of its grid, of a task, or of
records on their way to its node. -/
def State.lanesLeft (s : State) (l : Launch) : Bool :=
  (s.teams.any fun t => t.launch == l.id && decide (s.liveFibres t.id ≠ [])) || (s.qteams.any fun q => q.launch == l.id) ||
    (s.saved.any fun x => x.team.launch == l.id) || (s.msgs.any fun m => m.launch == l.id) || decide (l.nextTeam < l.nTeams) ||
    (s.tasks.any fun t => t.launch == l.id && (decide (t.state = .waiting) || decide (t.state = .ready) || decide (t.state = .placed))) ||
    decide (l.batch.recs ≠ []) || decide (l.batch.incoming ≠ [])

/-- Whether a Hen has to launch every open key of a launch. -/
def State.flushable (s : State) (tower : Nat) (l : Launch) : Bool :=
  ((s.tower tower).hen.any fun r => r.launch == l.id) && !((s.tower tower).deposits.any fun r => r.launch == l.id) && !s.lanesLeft l

/-- HEN_FLUSH (R69): every open key of a launch that has no live lane left, in ascending key order. -/
def execHenFlush (tower launch : Nat) (s : State) : Host.Outcome State Fault Refusal :=
  match s.launch? launch with
  | none => .next s
  | some l =>
    if s.flushable tower l then
      .next (((s.tower tower).openKeys.filter fun p => p.2 == launch).foldl (fun s p => s.launchKey tower p.1 p.2) s)
    else .next s

/-! ## Node front end (R59, R348) -/

/-- The batch of a node launches as one team of one group: lane i holds the i-th record. -/
def State.launchBatch (s : State) (l : Launch) : State :=
  let rs := l.batch.recs
  let k := (l.kernelAt l.kernel).nodeShape.1
  let s := s.queueTeam l.id .node l.kernel .pkg (placedVecs k rs) (lanesBelow rs.length)
  (s.modLaunch l.id fun l => { l with batch := { l.batch with recs := [], timer := none }, spawned := l.spawned + 1 }).progress l.id

/-- The timer of a batch that opens: the cycle at which it lapses, or the cycles left while the launch is saved. -/
def Launch.timerStart (l : Launch) (now : Nat) : Nat :=
  (l.kernelAt l.kernel).nodeShape.2 + (if l.state = .saved then 0 else now)

/-- A record joins the batch of its node; the 32nd launches it. -/
def State.joinBatch (s : State) (l : Launch) (r : List Word) : State :=
  let recs := l.batch.recs ++ [r]
  let timer := match l.batch.timer with
    | some t => some t
    | none => some (l.timerStart s.now)
  let l' := { l with batch := { l.batch with recs := recs, timer := timer } }
  let s := s.modLaunch l.id fun x => { x with batch := { x.batch with recs := recs, timer := timer } }
  if recs.length = 32 then s.launchBatch l' else s

/-- Whether the oldest record on its way to a node can join its batch: a batch that it fills finds its place in the launch queue. -/
def State.recordDue (s : State) (l : Launch) : Bool :=
  decide (l.batch.incoming ≠ []) && (decide (l.batch.recs.length < 31) || decide (s.batchesWaiting l.id < 64))

/-- The oldest record on its way to a node joins its batch. -/
def State.nextRecord (s : State) (launch : Nat) : State :=
  match s.launch? launch with
  | none => s
  | some l => match l.batch.incoming with
    | [] => s
    | r :: rs =>
      if !s.recordDue l then s
      else
      let s := s.modLaunch launch fun l => { l with batch := { l.batch with incoming := rs } }
      s.joinBatch { l with batch := { l.batch with incoming := rs } } r

/-- NODE_RECORD (R348). -/
def execNodeRecord (launch : Nat) (s : State) : Host.Outcome State Fault Refusal := .next (s.nextRecord launch)

/-- Whether the batch of a node launches short of 32 records: its timer has lapsed, or the launch is closed, and the launch queue has a
place; records that arrive in the same cycle are counted first. -/
def State.timerDue (s : State) (l : Launch) : Bool :=
  decide (l.batch.incoming = []) && decide (l.state ≠ .saved) && decide (l.outcome = none) && decide (s.batchesWaiting l.id < 64) &&
    ((l.batch.timer.map fun t => decide (t ≤ s.now) || !l.isOpen).getD false)

/-- GATHER_TIMER_LAPSE (R348). -/
def execGatherTimerLapse (launch : Nat) (s : State) : Host.Outcome State Fault Refusal :=
  match s.launch? launch with
  | some l => if s.timerDue l then .next (s.launchBatch l) else .next s
  | none => .next s

/-- CLOSE launches the last partial batch (R345, R348), after the records on their way; one that finds the launch queue full launches
when it has a place. -/
def State.closeNode (s : State) (l : Launch) : State :=
  let s := l.batch.incoming.foldl (fun s _ => s.nextRecord l.id) s
  match s.launch? l.id with
  | some l =>
    if l.batch.recs = [] ∨ l.batch.incoming ≠ [] ∨ 64 ≤ s.batchesWaiting l.id ∨ l.state = .saved then s else s.launchBatch l
  | none => s

end Sys2Proof.Machine
end

