-- ==== Sys2Proof/Machine/Distrib.lean ====
section
/-! DEFINITION. The distributors: demands (R36), anchors (R62), the descent of teams (R346), admission (R37, R136), the start of a
team (R38 to R40, R343) and its restore (R89), stealing (R63, R347), and the end of a team (R54). -/

namespace Sys2Proof.Machine

/-! ## Demands (R36, R37) -/

/-- What a team takes of a core, and of the entries of its tower. -/
structure Demand where
  slots : Nat
  scratch : Nat
  accs : Nat
  entries : Nat
deriving DecidableEq, Repr

/-- The demand of a kernel. -/
def Kernel.demand (k : Kernel) : Demand := ⟨k.field 5 0 / max 1 (k.field 8 6), 4096 * k.field 40 32, k.field 54 50, k.field 61 55⟩

/-- What a resident team holds. -/
def Team.demand (t : Team) : Demand := ⟨t.coreSlots.length, t.scratch, t.nacc, t.nslots⟩

/-- Two demands together. -/
def Demand.plus (a b : Demand) : Demand := ⟨a.slots + b.slots, a.scratch + b.scratch, a.accs + b.accs, a.entries + b.entries⟩

/-- The demands of a list together. -/
def Demand.sum (ds : List Demand) : Demand := ds.foldl Demand.plus ⟨0, 0, 0, 0⟩

/-- Whether demands fit a core. -/
def Demand.fits (d : Demand) : Bool := decide (d.slots ≤ 16) && decide (d.scratch ≤ 2 ^ 20) && decide (d.accs ≤ 16)

/-- The kernel of a queued team. -/
def State.kernelOf (s : State) (q : QTeam) : Kernel := ((s.launch? q.launch).map fun l => l.kernelAt q.kernel).getD Kernel.blank

/-- What the resident teams of a core hold. -/
def State.held (s : State) (core : Nat) : Demand := Demand.sum ((s.teams.filter fun t => t.core == core).map Team.demand)

/-- What the teams queued to a core demand. -/
def State.queuedTo (s : State) (core : Nat) : Demand :=
  Demand.sum ((s.qteams.filter fun q => decide (q.level = .core core)).map fun q => (s.kernelOf q).demand)

/-- Whether a core may be given work: active, not named in a RETIRE, its tower not stopped (R12, R31, R455). -/
def State.usable (s : State) (core : Nat) : Bool :=
  s.pkg.isActive (dieOf core) (core % 96) && !(s.core core).retiring && !(s.tower (towerOf core)).stopped

/-- Whether a core could admit a demand, less what is resident and queued there (R346). -/
def State.couldAdmit (s : State) (core : Nat) (d : Demand) : Bool :=
  s.usable core && ((s.held core).plus ((s.queuedTo core).plus d)).fits

/-- The cores of a die that could admit a demand, lowest first. -/
def State.coresFor (s : State) (die : Nat) (d : Demand) : List Nat :=
  ((List.range 96).map fun c => 96 * die + c).filter fun c => s.couldAdmit c d

/-! ## Rectangles (R14, R35) -/

/-- The cores of a rectangle of a die, row by row: rank r on element r. -/
def rectCores (die first w h : Nat) : List Nat := (List.range (w * h)).map fun r => 96 * die + first + r / w * 12 + r % w

/-- The first core positions of the rectangles of a shape, lowest first. -/
def rectFirsts (w h : Nat) : List Nat :=
  (List.range 96).filter fun p => decide (p % 12 + w ≤ 12) && decide (p / 12 + h ≤ 8)

/-- The rectangle of a die whose cores pass a test, the one whose first core is lowest. -/
def rectFor (die w h : Nat) (p : Nat → Bool) : Option (List Nat) :=
  ((rectFirsts w h).map fun f => rectCores die f w h).find? fun cs => cs.all p

/-! ## Anchors (R62, R346) -/

/-- The anchor of the team of a linear index: the base of the buffer record, linear, or an entry of a table; none when that
entry cannot be read. -/
def State.anchor (s : State) (l : Launch) (n : Nat) : Option Nat × State :=
  match bits (l.field 0 4) 7 6 with
  | 1 => (some ((l.field 0x28 8 + l.field 0x30 8 * n) % 2 ^ 57), s)
  | 2 => match s.virtRead l.ctx (l.field 0x28 8 + 8 * n) 8 with
    | (some v, s) => (some (v % 2 ^ 57), s)
    | (none, s) => (none, s)
  | _ => (some (l.field 0x40 8 % 2 ^ 57), s)

/-- The home of a team's anchor: a package and a tower; none when its page or its table entry cannot be reached. -/
def State.home (s : State) (l : Launch) (n : Nat) : Option (Nat × Nat) × State :=
  match s.anchor l n with
  | (none, s) => (none, s)
  | (some a, s) => match s.translateNoCache l.ctx a .read with
    | (.ok p, s) => (some (p.pkg, p.tower), s)
    | (_, s) => (none, s)

/-- The home tower of an anchor; a team without one takes the next tower in turn. -/
def State.homeTower (s : State) (l : Launch) (n : Nat) : Nat × State :=
  match s.home l n with
  | (some (_, t), s) => (t, s)
  | (none, s) => ((s.pkg.towerRr + 1) % 4, s.modPkg fun p => { p with towerRr := (p.towerRr + 1) % 4 })

/-- The other package of the pool that an anchor is homed on; the teams that can travel there are those of grids and nodes that have not
started (log 8). -/
def State.homeAway (s : State) (l : Launch) (q : QTeam) (n : Nat) : Option Nat :=
  let travels := decide (q.restore = none) && (decide (q.origin = .grid) || decide (q.origin = .node))
  match (s.home l n).1 with
  | some (p, _) => if travels ∧ p ≠ s.pkg.pkgNo ∧ s.pkg.pool.contains p then some p else none
  | none => none

/-- Whether a queued team has been sent to another package. -/
def QTeam.isAway (q : QTeam) : Bool :=
  match q.level with
  | .away _ => true
  | _ => false

/-- Whether it stands above the towers. -/
def QTeam.isHigh (q : QTeam) : Bool := decide (q.level = .rack) || decide (q.level = .tray) || decide (q.level = .pkg)

/-- The level that draws from a launch: the highest that this package has been elected for (R346, R400). -/
def State.topLevel (s : State) : Level :=
  if s.pkg.elected.contains 2 then .rack else if s.pkg.elected.contains 1 then .tray else .pkg

/-! ## Descent (R346) -/

/-- The teams that move with a queued team: its whole cluster. -/
def State.clusterOf (s : State) (q : QTeam) : List QTeam :=
  if q.clusterSize ≤ 1 then [q]
  else s.qteams.filter fun r => r.launch == q.launch && r.cluster == q.cluster && r.clusterSize == q.clusterSize

/-- Moves queued teams to the levels that a function gives them. -/
def State.setLevels (s : State) (qs : List QTeam) (g : QTeam → Level) : State :=
  { s with qteams := s.qteams.map fun r => if qs.any fun q => q.id == r.id then { r with level := g r } else r }

/-- Draws the next team of a grid, or its next cluster whole, into the queue of the top level. -/
def State.draw (s : State) (l : Launch) : State :=
  let k := l.kernelAt l.kernel
  let size := k.clusterW * k.clusterH
  let n := max 1 size
  let qs := (List.range n).map fun i =>
    let idx := l.nextTeam + i
    ({ id := s.nextId + i, launch := l.id, origin := .grid, index := idx, kernel := l.kernel, level := s.topLevel, cluster := idx / n,
       clusterSize := size, crank := if size = 0 then 0 else idx % n, placed := [], live := 0xFFFFFFFF, restore := none,
       since := s.now } : QTeam)
  { s with nextId := s.nextId + n, qteams := s.qteams ++ qs }.modLaunch l.id fun l => { l with nextTeam := l.nextTeam + n }

/-- Whether a launch runs: it has no outcome and is not being pre-empted. -/
def Launch.runs (l : Launch) : Bool := decide (l.outcome = none) && decide (l.state = .running)

/-- Whether the top queue draws from a launch: as it empties. -/
def State.drawable (s : State) (l : Launch) : Bool :=
  l.runs && decide (l.kind = 0) && decide (l.nextTeam < l.nTeams) && !(s.qteams.any fun q => q.launch == l.id && q.isHigh)

/-- The best of some dies by a count, the lowest of equals. -/
def bestOf (ds : List Nat) (count : Nat → Nat) : Option Nat :=
  ds.foldl (fun best d => match best with
    | none => some d
    | some b => if count b < count d then some d else some b) none

/-- The die of a tower for a team or a cluster, the one with the most active cores that could admit it. A cluster waits in the tower queue
while no die has a rectangle for it, and a team while its die could not admit it and has another one queued, since a queue draws as it
empties. -/
def State.dieFor (s : State) (tower : Nat) (q : QTeam) : Option Nat :=
  let k := s.kernelOf q
  let count := fun d => (s.coresFor d k.demand).length
  let dies := (List.range 6).map fun l => 6 * tower + l
  if q.clusterSize ≤ 1 then
    (bestOf dies count).filter fun d => decide (count d ≠ 0) || !(s.qteams.any fun r => decide (r.level = .die d))
  else bestOf (dies.filter fun d => (rectFor d k.clusterW k.clusterH fun c => s.couldAdmit c k.demand).isSome) count

/-- The teams resident on a core and queued to it. -/
def State.crowd (s : State) (core : Nat) : Nat :=
  (s.teams.filter fun t => t.core == core).length + (s.qteams.filter fun q => decide (q.level = .core core)).length

/-- The core of a die with the fewest teams that could admit a demand, the lowest of equals. -/
def State.coreFor (s : State) (die : Nat) (d : Demand) : Option Nat :=
  (s.coresFor die d).foldl (fun best c => match best with
    | none => some c
    | some b => if s.crowd c < s.crowd b then some c else some b) none

/-- One level down for a queued team and its cluster. -/
def State.descend (s : State) (q : QTeam) : State :=
  let qs := s.clusterOf q
  let k := s.kernelOf q
  let n := minOf (qs.map QTeam.index)
  match q.level, s.launch? q.launch with
  | .rack, some l => match s.homeAway l q n with
    | some p => s.setLevels qs fun _ => .away p
    | none => s.setLevels qs fun _ => if s.pkg.elected.contains 1 then .tray else .pkg
  | .tray, some l => match s.homeAway l q n with
    | some p => s.setLevels qs fun _ => .away p
    | none => s.setLevels qs fun _ => .pkg
  | .pkg, some l => match s.homeAway l q n with
    | some p => s.setLevels qs fun _ => .away p
    | none =>
      let (t, s) := s.homeTower l n
      s.setLevels qs fun _ => .tower t
  | .tower t, _ => match s.dieFor t q with
    | some d => s.setLevels qs fun _ => .die d
    | none => s
  | .die d, _ =>
    if q.clusterSize ≤ 1 then match s.coreFor d k.demand with
      | some c => s.setLevels qs fun _ => .core c
      | none => s
    else match rectFor d k.clusterW k.clusterH fun c => s.couldAdmit c k.demand with
      | some cs => s.setLevels qs fun r => .core (cs.getD r.crank 0)
      | none => s
  | _, _ => s

/-- Whether a cluster stands together: none of its teams is resident and being saved, to be queued again (R37). -/
def State.clusterWhole (s : State) (q : QTeam) : Bool :=
  decide (q.clusterSize ≤ 1) || !(s.teams.any fun t =>
    t.stopped && t.launch == q.launch && t.cluster == q.cluster && t.clusterSize == q.clusterSize)

/-- Whether a queued team can go down a level now. -/
def State.descends (s : State) (q : QTeam) : Bool :=
  let k := s.kernelOf q
  s.clusterWhole q && match q.level with
  | .rack | .tray | .pkg => (s.launch? q.launch).isSome
  | .away _ => false
  | .tower t => (s.dieFor t q).isSome
  | .die d =>
    if q.clusterSize ≤ 1 then (s.coreFor d k.demand).isSome
    else (rectFor d k.clusterW k.clusterH fun c => s.couldAdmit c k.demand).isSome
  | .core _ => false

/-- Whether a die queue of a tower holds a team that can go down to a core (R394). -/
def State.dieQueued (s : State) (tower : Nat) : Bool :=
  s.qteams.any fun q => match q.level with
    | .die d => decide (d / 6 = tower) && s.descends q
    | _ => false

/-- Whether a queued team goes down now: it leaves a tower's queue after those of the tower's dies have gone to their cores, so that
a die with a queued team counts one core fewer (R346, R394). -/
def State.descendsNow (s : State) (q : QTeam) : Bool :=
  s.descends q && match q.level with
    | .tower t => !s.dieQueued t
    | _ => true

/-- TEAM_DESCEND (R346): of a launch, the package queue draws its next team; of a queued team, it goes down a level. -/
def execTeamDescend (q : Nat) (s : State) : Host.Outcome State Fault Refusal :=
  match s.qteams.find? fun x => x.id == q with
  | some x => if s.descendsNow x then .next (s.descend x) else .next s
  | none => match s.launch? q with
    | some l => if s.drawable l then .next (s.draw l) else .next s
    | none => .next s

/-! ## Admission (R37, R60, R136, R307) -/

/-- Whether two granted ranges share a byte. -/
def grantsMeet (a b : Nat × Nat) : Bool := decide (max a.1 b.1 < min a.2 b.2)

/-- Whether a tower is free of other contexts' overlapping grants (R136). -/
def State.windowFree (s : State) (tower : Nat) (l : Launch) : Bool :=
  let other := fun m : Launch => decide (m.ctx ≠ l.ctx) && grantsMeet m.grant l.grant
  !(s.teams.any fun t => decide (towerOf t.core = tower) && ((s.launch? t.launch).map other).getD false) &&
    !(s.launches.any fun m => other m && decide (m.state = .restoring) && m.savedWins.any fun w => w.1 == tower)

/-- Whether the beats of a launch's restore have all been applied. -/
def State.windowBack (s : State) (l : Launch) : Bool := s.towers.all fun y => y.beats.all fun b => decide (b.team ≠ 0) || b.op != l.id

/-- Whether the launch of a queued team lets it start now; a saved team waits for its parked side-log entries (R440). -/
def State.mayStart (s : State) (q : QTeam) (l : Launch) : Bool :=
  match q.restore with
  | none => l.runs
  | some t => decide (l.outcome = none) && (decide (l.state = .running) || decide (l.state = .restoring)) && s.windowBack l &&
      !(s.sideLog.any fun e => e.team == t)

/-- Handler teams of one sender fibre start on a core in the order of their messages (R307). -/
def State.handlerFirst (s : State) (q : QTeam) : Bool :=
  match q.origin, q.restore with
  | .handler _, none =>
    ((s.qteams.find? fun r => decide (r.origin = q.origin) && decide (r.level = q.level) && decide (r.restore = none)).map QTeam.id) == some q.id
  | _, _ => true

/-- The entries of a tower that a team can be bound to: free, of a channel that is not removed (R66, R473). -/
def Tower.freeEntries (y : Tower) : List Nat :=
  (List.range 512).filter fun e => SMap.get 0 y.slots e == 0 && !y.removed.getLsbD (e / 64)

/-- The core that a queued team stands at. -/
def QTeam.at? (q : QTeam) : Option Nat :=
  match q.level with
  | .core c => some c
  | _ => none

/-- What a queued team needs besides room: its core, awake and running, its launch, its window, its turn. -/
def State.startsAt (s : State) (q : QTeam) : Bool :=
  match q.at?, s.launch? q.launch with
  | some c, some l =>
    s.usable c && !(s.layer (dieOf c)).asleep && s.mayStart q l && s.windowFree (towerOf c) l && s.handlerFirst q
  | _, _ => false

/-- Whether queued teams can all be admitted at once. -/
def State.canAdmit (s : State) (qs : List QTeam) : Bool :=
  let at_ := fun c => qs.filter fun q => decide (q.level = .core c)
  let cores := (qs.filterMap QTeam.at?).eraseDups
  let towers := (cores.map towerOf).eraseDups
  decide (qs ≠ []) && qs.all s.startsAt &&
    (cores.all fun c => ((s.held c).plus (Demand.sum ((at_ c).map fun q => (s.kernelOf q).demand))).fits) &&
    (towers.all fun t =>
      decide ((Demand.sum ((qs.filter fun q => (q.at?.map towerOf) == some t).map fun q => (s.kernelOf q).demand)).entries ≤
        (s.tower t).freeEntries.length))

/-- The teams that start with a queued team: its cluster whole (R37), or every team of a `concurrent` grid (R60). -/
def State.together (s : State) (q : QTeam) : List QTeam :=
  match s.launch? q.launch with
  | some l =>
    if l.cls = 0 ∧ q.origin = .grid then
      if l.nextTeam < l.nTeams then [] else s.qteams.filter fun r => r.launch == l.id && decide (r.origin = .grid) && !r.isAway
    else if s.clusterWhole q then s.clusterOf q
    else []
  | none => []

/-! ## The start of a team -/

/-- The word of the descriptor for the window of a role, or the window that R39 gives a role without one. -/
def Kernel.window (k : Kernel) (r : Nat) : Nat × Nat :=
  let w := k.field (95 + 32 * r) (64 + 32 * r)
  let z := min 256 (512 / max 1 (k.field 8 6)) / 8 * 8
  if bitN w 31 then (bits w 8 0, bits w 24 16) else (r * z, z)

/-- The circular buffers of a kernel as `cbcfg` would configure them (R341, R343). -/
def Kernel.buffers (k : Kernel) : SMap CBuf :=
  k.cbufs.foldl (fun m e =>
    let v := e.toNat
    let ns := bits v 11 4
    SMap.set CBuf.blank m (bits v 3 0) { CBuf.blank with base := bits v 31 12, sz := bits v 47 32 / 16, ns := ns, free := ns }) []

/-- The lowest free issue slots of a core. -/
def State.freeSlots (s : State) (core n : Nat) : List Nat :=
  let used := (s.teams.filter fun t => t.core == core).flatMap Team.coreSlots
  ((List.range 16).filter fun j => !used.contains j).take n

/-- Binds the lowest free entries of a tower to a team (R66). -/
def State.bindEntries (s : State) (tower team n : Nat) : List Nat × State :=
  let es := (s.tower tower).freeEntries.take n
  (es, s.modTower tower fun y => { y with slots := es.foldl (fun m e => SMap.set 0 m e team) y.slots })

/-- A core takes a team in: its L1 is written back and dropped, which is the acquire of the start (R116, R166), and the B granules
of a core that changes its context become zero (R289). -/
def State.takeIn (s : State) (core ctx : Nat) : State :=
  let s := s.invalidateAll core
  s.modCore core fun c => { c with
    bslices := if c.lastCtx = some ctx then c.bslices else [], bad := if c.lastCtx = some ctx then c.bad else [], lastCtx := some ctx }

/-- The coordinates of a team: of its linear index in a grid; a team that a message or the Hen starts has none of its own, and
what it reads is free. -/
def State.coords (s : State) (l : Launch) (q : QTeam) : Word × Word × Word :=
  let gx := max 1 (l.field 0x10 4)
  let gy := max 1 (l.field 0x14 4)
  let free := fun k => BitVec.ofNat 32 (s.pick (8388608 + k))
  match q.origin with
  | .handler _ | .hen => (free 0, free 1, free 2)
  | _ => (BitVec.ofNat 32 (q.index % gx), BitVec.ofNat 32 (q.index / gx % gy), BitVec.ofNat 32 (q.index / (gx * gy)))

/-- The team of a queued team on a core. -/
def State.newTeam (s : State) (l : Launch) (q : QTeam) (core : Nat) (entries : List Nat) : Team :=
  let k := l.kernelAt q.kernel
  let (tx, ty, tz) := s.coords l q
  { Team.start q.id l.id core q.kernel s.now with
    origin := q.origin, index := q.index, tx := tx, ty := ty, tz := tz, gx := BitVec.ofNat 32 (l.field 0x10 4),
    gy := BitVec.ofNat 32 (l.field 0x14 4), gz := BitVec.ofNat 32 (l.field 0x18 4), crank := q.crank, cluster := q.cluster,
    clusterSize := q.clusterSize, groups := k.field 5 0, perSlot := max 1 (k.field 8 6),
    coreSlots := s.freeSlots core k.demand.slots, scratch := k.demand.scratch, nacc := k.demand.accs, cbufs := k.buffers,
    entries := entries, nslots := k.demand.entries }

/-- Places registers in a fibre as it starts (R40): vector numbers count from the window's base. -/
def place (base : Nat) (p : Team × Fibre) (w : RegWrite) : Team × Fibre :=
  putCell p.1 p.2 w.cls (if w.cls = .vec then base + w.reg else w.reg) w.lanes fun L => SMap.get 0 w.vals L

/-- Fibre n of a team: role n mod f of slot n / f, s0 to s7 from the team's buffer record, then what its launch places. -/
def State.addFibre (s : State) (l : Launch) (q : QTeam) (team n : Nat) : State :=
  match s.team? team with
  | none => s
  | some t =>
    let k := l.kernelAt q.kernel
    let (base, size) := k.window (n % t.perSlot)
    let f := Fibre.start s.nextId team (n / t.perSlot) (n % t.perSlot) k.entry q.live base size (k.field 28 21) s.now
    let record := placedUnis 0 ((List.range 8).map fun i => BitVec.ofNat 32 (l.field (0x40 + 4 * i) 4))
    let p := (record ++ q.placed).foldl (place base) (t, f)
    let s := { s with nextId := s.nextId + 1, fibres := s.fibres ++ [p.2] }.modTeam team fun _ => p.1
    s.wake f.id

/-- A queued team starts on a core. -/
def State.startTeam (s : State) (l : Launch) (q : QTeam) (core : Nat) : State :=
  let s := { s with qteams := s.qteams.filter fun r => r.id != q.id }.takeIn core l.ctx
  let (es, s) := s.bindEntries (towerOf core) q.id (l.kernelAt q.kernel).demand.entries
  let t := s.newTeam l q core es
  let s := { s with teams := s.teams ++ [t] }
  let s := (List.range t.groups).foldl (fun s n => s.addFibre l q t.id n) s
  let s := match q.origin with
    | .task e => { s with tasks := replaceBy (fun x => x.entry == e) (fun x => { x with state := .running }) s.tasks }
    | _ => s
  s.progress l.id

/-! ## The restore of a team (R89, R166, R355, R453) -/

/-- A launch that was being restored runs again once none of its teams is still to be restored (R355, R450). -/
def State.launchRuns (s : State) (l : Nat) : State :=
  if s.qteams.any fun q => q.launch == l && q.restore.isSome then s
  else s.modLaunch l fun x =>
    if x.state = .restoring then
      { x with state := .running, savedWins := [], watchdog := s.now }
    else x

/-- The runs of a launch that none of its saved teams lies in any more are free, but for that of a stop in progress (R355). -/
def State.freeRuns (s : State) (l : Nat) : State :=
  let busy := s.teams.any fun t => t.launch == l && t.stopped
  s.modLaunch l fun x =>
    { x with savedRuns := x.savedRuns.filter fun r => (busy && x.savedRuns.getLast? == some r) ||
        s.saved.any fun y => y.team.launch == l && y.run == r.base }

/-- A failed check of a save area: no team of the launch is restored, and it ends (R453). -/
def State.restoreFails (s : State) (l : Launch) : State :=
  let s := { s with qteams := s.qteams.filter fun q => !(q.launch == l.id && q.restore.isSome) }
  (s.errorRecord 7 2 4 127 31 s.anyTower [(0x18, 8, l.recVa), (0x20, 4, 0xFFFF0002)]).endLaunch l.id 2 0xFFFF0002

/-- The area of a saved team; none when a byte cannot be read or a check fails. -/
def State.areaOf (s : State) (l : Launch) (x : SavedTeam) : Option Bytes × State :=
  let k := l.kernelAt x.team.kernel
  match s.virtRead l.ctx x.area k.saveSize with
  | (some v, s) => (if areaOk k ⟨v⟩ then some ⟨v⟩ else none, s)
  | (none, s) => (none, s)

/-- A saved team is resident again: its fibres, its results, its places in the queues of words. Restoring a fibre is an acquire at rack
scope (R152, R166). -/
def State.putBack (s : State) (x : SavedTeam) (b : Bytes) (core : Nat) (es : List Nat) : State :=
  let free := fun w : FeWait => { w with reserved := false }
  let t : Team := { x.teamBack b with
    core := core, coreSlots := s.freeSlots core x.team.demand.slots, entries := es, stopped := false,
    feq := x.team.feq.map free }
  let fs := x.fibresBack b s.now
  let s := { s with
    teams := s.teams ++ [t], fibres := s.fibres ++ fs, results := s.results ++ x.results,
    saved := s.saved.filter fun y => y.team.id != t.id }
  let s := (fs.filter fun f => decide (f.run = .ready)).foldl (fun s f => s.wake f.id) s
  let s := fs.foldl (fun s f => s.promoteHeard f.id) s
  ((t.feq.map FeWait.word).eraseDups).foldl (fun s w => s.feServe t.id w) s

/-- A saved team is restored on a core. -/
def State.resumeTeam (s : State) (l : Launch) (q : QTeam) (core : Nat) : State :=
  match s.saved.find? fun x => some x.team.id == q.restore with
  | none => { s with qteams := s.qteams.filter fun r => r.id != q.id }
  | some x => match s.areaOf l x with
    | (none, s) => s.restoreFails l
    | (some b, s) =>
      let s := { s with qteams := s.qteams.filter fun r => r.id != q.id }.takeIn core l.ctx
      let (es, s) := s.bindEntries (towerOf core) x.team.id x.team.nslots
      ((s.putBack x b core es).freeRuns l.id).launchRuns l.id

/-- Admits a queued team to the core it stands at. -/
def State.admitTeam (s : State) (q : QTeam) : State :=
  match q.at?, s.launch? q.launch with
  | some c, some l => if q.restore.isSome then s.resumeTeam l q c else s.startTeam l q c
  | _, _ => s

/-- Whether a queued team and those that start with it can be admitted. -/
def State.admissible (s : State) (q : QTeam) : Bool := s.canAdmit (s.together q)

/-- TEAM_ADMISSION (R37, R60). -/
def execTeamAdmission (q : Nat) (s : State) : Host.Outcome State Fault Refusal :=
  match s.qteams.find? fun x => x.id == q with
  | some x => if s.admissible x then .next ((s.together x).foldl State.admitTeam s) else .next s
  | none => .next s

/-! ## Stealing (R63, R347, R455) -/

/-- Whether a team may be carried out of a tower (R347); the groups of a Hen run on its own tower (R69). -/
def State.migrates (s : State) (q : QTeam) (l : Launch) : Bool :=
  match q.origin with
  | .task e => ((s.tasks.find? fun t => t.entry == e).map Task.mig).getD false
  | .hen | .handler _ => false
  | _ => l.mig

/-- Whether a core and another lie in the rectangle of one resident cluster (R63). -/
def State.sameRect (s : State) (a b : Nat) : Bool :=
  s.teams.any fun t => t.core == a && s.teams.any fun u =>
    u.core == b && u.launch == t.launch && decide (1 < t.clusterSize) && u.cluster == t.cluster

/-- The place of a queued team in the order in which a core looks: 0 the cores of its rectangle, 1 its die, 2 its tower, 3 beyond;
none when it may not take the team. -/
def State.stealPlace (s : State) (q : QTeam) (core : Nat) : Option Nat :=
  match s.launch? q.launch with
  | none => none
  | some l =>
    let far := if s.migrates q l then some 3 else none
    let fixed := match q.origin with
      | .handler _ => true
      | _ => q.restore.isSome
    if fixed then none
    else match q.level with
      | .core c =>
        if c = core then none
        else if s.sameRect core c then some 0
        else if dieOf c = dieOf core then some 1
        else if towerOf c = towerOf core then some 2
        else far
      | .die d => if d = dieOf core then some 1 else if d / 6 = towerOf core then some 2 else far
      | .tower t => if t = towerOf core then some 2 else far
      | .rack | .tray | .pkg => far
      | .away _ => none

/-- The queued teams as they would stand once a core has taken one: its cluster on the rectangle that begins at the core. R63 names an
active rectangle of the shape and not which one a core takes (DESIGN CHOICE, log 80). -/
def State.taken (s : State) (q : QTeam) (core : Nat) : List QTeam :=
  let k := s.kernelOf q
  let cs := rectCores (dieOf core) (core % 96) k.clusterW k.clusterH
  (s.clusterOf q).map fun r => { r with level := .core (if q.clusterSize ≤ 1 then core else cs.getD r.crank 0) }

/-- Whether a core can take a queued team: nothing is queued to it, it can admit the team, and no team stands nearer. -/
def State.canSteal (s : State) (q : QTeam) (core : Nat) : Bool :=
  let fits := fun r : QTeam =>
    let k := s.kernelOf r
    (decide (r.clusterSize ≤ 1) || (rectFirsts k.clusterW k.clusterH).contains (core % 96)) && s.canAdmit (s.taken r core)
  match s.stealPlace q core with
  | none => false
  | some p =>
    decide (core < 2304) && !(s.qteams.any fun r => decide (r.level = .core core)) && fits q &&
      s.qteams.all fun r => match s.stealPlace r core with
        | some p' => decide (p ≤ p') || !fits r
        | none => true

/-- Whether a team of a `concurrent` grid starts only with all the others (R60): a steal moves it to the taking core's queue (R394). -/
def State.startsTogether (s : State) (q : QTeam) : Bool := decide (q.origin = .grid) && ((s.launch? q.launch).map fun l => decide (l.cls = 0)).getD false

/-- TEAM_STEAL (R63, R347): a team that may start is admitted in the same step. -/
def execTeamSteal (q core : Nat) (s : State) : Host.Outcome State Fault Refusal :=
  match s.qteams.find? fun x => x.id == q with
  | some x =>
    if s.canSteal x core then
      let qs := s.taken x core
      let s := s.setLevels qs fun r => ((qs.find? fun y => y.id == r.id).map QTeam.level).getD r.level
      if s.startsTogether x then .next s else .next (qs.foldl State.admitTeam s)
    else .next s
  | none => .next s

/-! ## The end of a team (R54) -/

/-- Whether nothing of a team is still to perform: no access, side-log entry, call or engine operation. -/
def State.drained (s : State) (t : Team) : Bool :=
  let mine := fun fid => s.fibres.any fun f => f.id == fid && f.team == t.id
  (s.ops.all fun o => o.team != t.id || o.performed) && (s.sideLog.all fun e => e.team != t.id) && (s.calls.all fun c => !mine c.fid) &&
    t.queues.all fun o => decide (o.queue = 7)

/-- Whether a team has ended: all its fibres have, nothing is still to perform, and a task has committed (R320). -/
def State.teamOver (s : State) (t : Team) : Bool :=
  let isTask := match t.origin with
    | .task _ => true
    | _ => false
  decide (s.liveFibres t.id = []) && s.drained t && (!isTask || t.committed)

/-- Takes a team and all that is its own out of the state; its entries are free, its scratchpad returns to the L1. -/
def State.removeTeam (s : State) (t : Team) : State :=
  let mine := (s.fibres.filter fun f => f.team == t.id).map Fibre.id
  let ops := (s.ops.filter fun o => o.team == t.id).map MemOp.id
  let s := t.coreSlots.foldl (fun s j => s.setCurrent t.core j none) s
  let s := { s with
    teams := s.teams.filter fun u => u.id != t.id, fibres := s.fibres.filter fun f => f.team != t.id,
    results := s.results.filter fun r => !mine.contains r.fid, ops := s.ops.filter fun o => o.team != t.id,
    reqs := s.reqs.filter fun r => !ops.contains r.op, watches := s.watches.filter fun w => !(mine.any fun f => w.fid == some f),
    calls := s.calls.filter fun c => !mine.contains c.fid, members := s.members.filter fun m => m.team != t.id,
    draws := s.draws.filter fun d => d.team != t.id, streams := s.streams.filter fun x => !mine.contains x.fid }
  let s := s.lookDraws t.core
  if t.entries = [] then s
  else s.modTower (towerOf t.core) fun y => { y with slots := y.slots.filter fun p => p.2 != t.id }

/-- The entries of retired tasks that no lower task reads from any more are free, and a `tspawn` that waits for one looks again
(R319, R352). -/
def State.freeTasks (s : State) : State :=
  let waits := fun t : Task => s.tasks.any fun u => u.launch == t.launch && decide (u.seq < t.seq) && decide (u.state ≠ .retired) &&
    (rangeTiles u.reads).any fun x => (rangeTiles t.writes).contains x
  let keep := s.tasks.filter fun t => decide (t.state ≠ .retired) || waits t
  if keep.length = s.tasks.length then s
  else
    let gone := fun r : TileRec => (s.tasks.filter fun t =>
      decide (t.state = .retired) && !waits t && t.launch == r.launch && (rangeTiles t.writes).contains r.tile).map Task.seq
    (s.fibres.filter fun f => decide (f.waits = .table)).foldl (fun s f => s.wake f.id)
      { s with tasks := keep, tiles := s.tiles.map fun r => { r with gone := r.gone ++ gone r } }

/-- Committed versions that no task can still read return to their pool (R352). -/
def State.freeVersions (s : State) : State :=
  let dead := fun (r : TileRec) (w : Nat) =>
    let of := s.tasks.filter fun t => t.launch == r.launch && decide (w < t.seq)
    let next := (of.filter fun t => (rangeTiles t.writes).contains r.tile).map Task.seq ++ r.gone.filter fun n => decide (w < n)
    -- a writer whose entry is free again has committed, and every task below it that reads the tile has retired
    decide (next ≠ []) && (r.gone.contains (minOf next)) ||
      decide (next ≠ []) && of.all fun t => decide (minOf next < t.seq) ||
        ((decide (t.seq ≠ minOf next) || decide (t.state = .committed) || decide (t.state = .retired)) &&
          (!(rangeTiles t.reads).contains r.tile || decide (t.state = .retired)))
  { s with tiles := s.tiles.map fun r => { r with versions := r.versions.filter fun v => !dead r v.1 } }

/-- A task has retired. -/
def State.retireTask (s : State) (e : Nat) : State :=
  ({ s with tasks := replaceBy (fun t => t.entry == e) (fun t => { t with state := .retired }) s.tasks }).freeVersions.freeTasks

/-- A team ends: a release at rack scope; its resources are released and its launch counts it. -/
def State.endTeam (s : State) (t : Team) : State :=
  let s := (s.writeBackAll t.core).removeTeam t
  let s := match t.origin with
    | .grid => s.modLaunch t.launch fun l => { l with ended := l.ended + 1 }
    | .task e => s.retireTask e
    | _ => s.modLaunch t.launch fun l => { l with doneSpawned := l.doneSpawned + 1 }
  s.progress t.launch

/-- Whether a team that another package runs may end now: its launch runs (log 8). -/
def State.awayOver (s : State) (q : QTeam) : Bool := q.isAway && ((s.launch? q.launch).map Launch.runs).getD false

/-- The other package reports the end of a team. -/
def State.endAway (s : State) (q : QTeam) : State :=
  let s := { s with qteams := s.qteams.filter fun r => r.id != q.id }
  (s.modLaunch q.launch fun l =>
    if q.origin = .grid then { l with ended := l.ended + 1 } else { l with doneSpawned := l.doneSpawned + 1 }).progress q.launch

/-- TEAM_END (R54, R166). -/
def execTeamEnd (team : Nat) (s : State) : Host.Outcome State Fault Refusal :=
  match s.team? team with
  | some t => if s.teamOver t then .next (s.endTeam t) else .next s
  | none => match s.qteams.find? fun q => q.id == team with
    | some q => if s.awayOver q then .next (s.endAway q) else .next s
    | none => .next s

end Sys2Proof.Machine
end

