-- ==== Sys2Proof/Machine/Tasks.lean ====
section
/-! DEFINITION. Tasks on their way through the dependence table: the start with its versions and binding block (R350, R351, R456),
and the commit (R320, R352, R449). -/

namespace Sys2Proof.Machine

/-- A task by its entry. -/
def State.task? (s : State) (e : Nat) : Option Task := s.tasks.find? fun t => t.entry == e

/-- Changes a task. -/
def State.modTask (s : State) (e : Nat) (g : Task → Task) : State := { s with tasks := replaceBy (fun t => t.entry == e) g s.tasks }

/-! ## Versions (R350, R352, R456) -/

/-- The bytes of a tile (R189, R341). -/
def Launch.tileSize (l : Launch) : Nat := 2 ^ (l.kernelAt l.kernel).taskShape.2.2

/-- The address of a pool version. -/
def Launch.versionAt (l : Launch) (v : Nat) : Nat := l.field 0x88 8 + v * l.tileSize

/-- The map entry of a tile. -/
def Launch.mapAt (l : Launch) (tile : Nat) : Nat := l.field 0x80 8 + 8 * tile

/-- The pool versions of a launch that are allocated. -/
def State.usedVersions (s : State) (l : Nat) : List Nat :=
  ((s.tiles.filter fun r => r.launch == l).flatMap fun r => r.versions.map Prod.snd) ++
    ((s.tasks.filter fun t => t.launch == l && decide (t.state ≠ .committed) && decide (t.state ≠ .retired)).flatMap fun t =>
      t.versions.map Prod.snd)

/-- A free version for each of some tiles; which ones is the device's choice. None when the pool has too few. -/
def State.takeVersions (s : State) (l : Launch) (tiles : List Nat) : Option (List (Nat × Nat)) :=
  let n := l.poolSize
  if n < (s.usedVersions l.id).length + tiles.length then none
  else tiles.foldl (fun acc t => acc.bind fun vs =>
    let used := s.usedVersions l.id ++ vs.map Prod.snd
    let first := s.pick (16777216 + t) % n
    (((List.range (used.length + 1)).map fun k => (first + k) % n).find? fun v => !used.contains v).map fun v => vs ++ [(t, v)]) (some [])

/-- The tiles that a task writes, each once. -/
def Task.writeTiles (t : Task) : List Nat := (rangeTiles t.writes).eraseDups

/-- Whether a task lacks versions. -/
def Task.lacks (t : Task) : Bool := decide (t.versions = []) && decide (t.writeTiles ≠ [])

/-- A task with its versions: none while a lower Ready task lacks them, or the pool has too few (R351, R456). -/
def State.supply (s : State) (l : Launch) (t : Task) : Option (List (Nat × Nat)) :=
  if !t.lacks then some t.versions
  else if s.tasks.any fun u => u.launch == t.launch && decide (u.seq < t.seq) && decide (u.state = .ready) && u.lacks then none
  else s.takeVersions l t.writeTiles

/-! ## Lines of the task structures (R449) -/

/-- What the lines of a task structure meet: nothing, a missing granule, or a failed walk. -/
inductive Lines where
  | ok
  | missing (va : Nat)
  | bad
deriving DecidableEq, Repr

/-- The first and the last byte of each of some runs of bytes, tried for an access; a failed walk weighs more than a missing page. -/
def State.tryLines (s : State) (ctx : Nat) (perm : Perm) : List (Nat × Nat) → Lines × State
  | [] => (.ok, s)
  | (va, n) :: rest =>
    let (a, s) := s.translateNoCache ctx va perm
    let (b, s) := s.translateNoCache ctx (va + n - 1) perm
    let (r, s) := s.tryLines ctx perm rest
    match a, b, r with
    | .bad .., _, _ | _, .bad .., _ | _, _, .bad => (.bad, s)
    | .unmapped _, _, _ => (.missing (granuleOf va), s)
    | _, .unmapped _, _ => (.missing (granuleOf (va + n - 1)), s)
    | _, _, r => (r, s)

/-- A failed walk of a task structure ends the launch (R449). -/
def State.taskFails (s : State) (l : Launch) : State :=
  (s.errorRecord 7 2 4 127 31 s.anyTower [(0x18, 8, l.recVa), (0x20, 4, 0xFFFF0003)]).endLaunch l.id 2 0xFFFF0003

/-- Reads n bytes where the device may write them. -/
def State.peek (s : State) (ctx : Nat) : Nat → Nat → Nat × State
  | _, 0 => (0, s)
  | va, n + 1 =>
    match s.translateNoCache ctx va .write with
    | (.ok p, s) =>
      let (b, s) := s.homeRead p.key 1
      let (v, s) := s.peek ctx (va + 1) n
      (b + 256 * v, s)
    | (_, s) => s.peek ctx (va + 1) n

/-! ## The start of a task (R351) -/

/-- The record of a tile. -/
def State.tileRec (s : State) (l tile : Nat) : TileRec :=
  (s.tiles.find? fun r => r.launch == l && r.tile == tile).getD
    { launch := l, tile := tile, writer := none, versions := [], initial := none, gone := [] }

/-- Where a read tile is bound: the version of the latest writer below the task, or the launch-time version, which is none when the
map has still to be read for it. -/
def State.boundTo (s : State) (l : Launch) (t : Task) (tile : Nat) : Option Nat :=
  let r := s.tileRec l.id tile
  let below := r.versions.filter fun v => decide (v.1 < t.seq)
  match below.foldl (fun best v => match best with
      | none => some v
      | some b => if b.1 < v.1 then some v else some b) (none : Option (Nat × Nat)) with
  | some v => some (l.versionAt v.2)
  | none => r.initial

/-- The address of a read tile, the map read where it is needed. -/
def State.readTile (s : State) (l : Launch) (t : Task) (tile : Nat) : Nat × State :=
  match s.boundTo l t tile with
  | some a => (a, s)
  | none => match s.virtRead l.ctx (l.mapAt tile) 8 with
    | (some v, s) => (v, s)
    | (none, s) => (0, s)

/-- Writes the addresses of the tiles of range r of a binding block. -/
def State.bindRange (s : State) (l : Launch) (t : Task) (block r : Nat) (write : Bool) (range : Nat × Nat) : State :=
  (List.range range.2).foldl (fun s i =>
    let tile := range.1 + i
    let (a, s) := if write then (l.versionAt (((t.versions.find? fun v => v.1 == tile).map Prod.snd).getD 0), s) else s.readTile l t tile
    (s.virtWrite l.ctx (block + 0x40 + 64 * r + 8 * i) 8 a).2) s

/-- The binding block of a task is written, and the task goes to the distributors. -/
def State.placeTask (s : State) (l : Launch) (t : Task) : State :=
  let block := l.field 0x90 8 + 512 * t.entry
  let s := (s.virtWrite l.ctx block 4 (t.seq % 2 ^ 32)).2
  let s := (s.virtWrite l.ctx (block + 8) 4 t.arg.toNat).2
  let s := (List.range 4).foldl (fun s r => s.bindRange l t block r false (t.reads.getD r (0, 0))) s
  let s := (List.range 2).foldl (fun s r => s.bindRange l t block (r + 4) true (t.writes.getD r (0, 0))) s
  let record := block % 2 ^ 57 + 8 * 2 ^ 64 + 512 * 2 ^ 96 + 2 ^ 150
  (s.modTask t.entry fun t => { t with state := .placed }).queueTeam l.id (.task t.entry) l.kernel .pkg (placedUnis 8 (wordsOf 8 record)) 0xFFFFFFFF

/-- Whether a task can start now. -/
def State.taskStarts (s : State) (t : Task) : Bool :=
  match s.launch? t.launch with
  | some l => l.runs && decide (t.state = .ready) && decide (t.heldVa = none) && (s.supply l t).isSome
  | none => false

/-- A task receives its versions; then its structures are read and written, or it waits for their page (R449). -/
def State.beginTask (s : State) (l : Launch) (t : Task) (vs : List (Nat × Nat)) : State :=
  let t := { t with versions := vs }
  let s := s.modTask t.entry fun t => { t with versions := vs }
  let maps := ((rangeTiles t.reads).filter fun x => (s.boundTo l t x).isNone).map fun x => (l.mapAt x, 8)
  let (a, s) := s.tryLines l.ctx .read maps
  let (b, s) := s.tryLines l.ctx .write [(l.field 0x90 8 + 512 * t.entry, 512)]
  match a, b with
  | .bad, _ | _, .bad => s.taskFails l
  | .missing va, _ => s.modTask t.entry fun t => { t with heldVa := some va }
  | .ok, .missing va => s.modTask t.entry fun t => { t with heldVa := some va }
  | .ok, .ok => s.placeTask l t

/-- TASK_START (R351). -/
def execTaskStart (entry : Nat) (s : State) : Host.Outcome State Fault Refusal :=
  match s.task? entry with
  | none => .next s
  | some t =>
    if !s.taskStarts t then .next s
    else match s.launch? t.launch with
      | none => .next s
      | some l => match s.supply l t with
        | some vs => .next (s.beginTask l t vs)
        | none => .next s

/-! ## The commit (R320, R352) -/

/-- The task of a team. -/
def State.taskOf (s : State) (t : Team) : Option Task :=
  match t.origin with
  | .task e => s.task? e
  | _ => none

/-- Whether a team's task commits now: every live fibre has arrived, or all have ended, and its operations have performed. -/
def State.commits (s : State) (t : Team) : Bool :=
  match s.taskOf t with
  | some k => !t.committed && decide (k.heldVa = none) && (decide (s.liveFibres t.id = []) || s.commitFull t) && s.drained t && !s.isOver t
  | none => false

/-- Whether the last arrival at a team's commit has happened, so that the commit comes before a save of the team (R356). -/
def State.commitArrived (s : State) (t : Team) : Bool :=
  (s.taskOf t).isSome && !t.committed && (decide (s.liveFibres t.id = []) || s.commitFull t)

/-- Whether the map takes a task's version of a tile. -/
def State.mapTakes (s : State) (t : Task) (tile : Nat) : Bool :=
  match (s.tileRec t.launch tile).writer with
  | some w => decide (w < t.seq)
  | none => true

/-- One tile of a commit: its version is allocated from now on, and the map takes it unless a later task has written the tile. -/
def State.commitTile (s : State) (l : Launch) (t : Task) (v : Nat × Nat) : State :=
  let r := s.tileRec l.id v.1
  let r := { r with versions := r.versions ++ [(t.seq, v.2)] }
  let (r, s) := if s.mapTakes t v.1 then
      let (old, s) := s.peek l.ctx (l.mapAt v.1) 8
      let s := (s.virtWrite l.ctx (l.mapAt v.1) 8 (l.versionAt v.2)).2
      ({ r with writer := some t.seq, initial := some (r.initial.getD old) }, s)
    else (r, s)
  { s with tiles := (s.tiles.filter fun x => !(x.launch == l.id && x.tile == v.1)) ++ [r] }

/-- The commit of a task: its team's fibres go on. -/
def State.commitTask (s : State) (l : Launch) (team : Team) (t : Task) : State :=
  let s := s.writeBackAll team.core
  let s := t.versions.foldl (fun s v => s.commitTile l t v) s
  let s := s.modTask t.entry fun t => { t with state := .committed }
  let s := s.modTeam team.id fun t => { t with committed := true, commit := ⟨t.commit.phase + 1, []⟩ }
  (((s.wakePhase 10 (s.liveFibres team.id)).promoteTasks).freeVersions).progress l.id

/-- TASK_COMMIT (R320, R352): a map line on a missing page makes it wait (R449). -/
def execTaskCommit (team : Nat) (s : State) : Host.Outcome State Fault Refusal :=
  match s.team? team with
  | none => .next s
  | some u =>
    if !s.commits u then .next s
    else match s.taskOf u, s.launch? u.launch with
      | some t, some l =>
        let maps := ((t.versions.map Prod.fst).filter fun x => s.mapTakes t x).map fun x => (l.mapAt x, 8)
        match s.tryLines l.ctx .write maps with
        | (.bad, s) => .next (s.taskFails l)
        | (.missing va, s) => .next (s.modTask t.entry fun t => { t with heldVa := some va })
        | (.ok, s) => .next (s.commitTask l u t)
      | _, _ => .next s

end Sys2Proof.Machine
end

