-- ==== Sys2Proof/Machine/Launching.lean ====
section
/-! DEFINITION. The command parser: a launch record and its object checked and turned into a launch (R192, R338 to R342, R446); the end
of a launch (R344, R451) and its watchdog (R450). -/

namespace Sys2Proof.Machine

/-! ## The package's signature (R342) -/

/-- One bit of the CRC-64, from the highest. -/
def crcBit (crc : Nat) (b : Bool) : Nat :=
  let top := b2n b ^^^ crc / 2 ^ 63
  if top % 2 = 1 then (crc * 2 % 2 ^ 64) ^^^ 0x42F0E1EBA9EA3693 else crc * 2 % 2 ^ 64

/-- The CRC-64 of bytes: initial value 0, nothing reflected, no final XOR. -/
def crc64 (bs : List Byte) : Nat :=
  bs.foldl (fun c b => (List.range 8).foldl (fun c i => crcBit c (b.getLsbD (7 - i))) c) 0

/-- The signature of a core map. -/
def mapSignature (m : List CoreMapEntry) : BitVec 64 := BitVec.ofNat 64 (crc64 (m.flatMap fun e => toLe 12 e.active.toNat))

/-! ## The object (R192) -/

/-- An object: the context and the address that it is read at, its number of kernels and its tables. -/
structure Obj where
  ctx : Nat
  base : Nat
  count : Nat
  ktab : Nat
  code : Nat
  codeN : Nat
  strs : Nat
  strN : Nat
deriving DecidableEq, Repr

/-- A read by the parser: a walk result refuses the launch (R446). -/
def State.look (s : State) (ctx va n : Nat) : Except Nat Nat :=
  match (s.virtRead ctx va n).1 with
  | some v => .ok v
  | none => .error 0x203

/-- Refuses with a code when a condition holds. -/
def refuse (b : Bool) (code : Nat) : Except Nat Unit := if b then .error code else .ok ()

/-- The 32-bit word at a byte offset. -/
def wordAt (v off : Nat) : Nat := v / 2 ^ (8 * off) % 2 ^ 32

/-- The header of an object. -/
def State.readObj (s : State) (ctx base : Nat) : Except Nat Obj := do
  let h ← s.look ctx base 64
  refuse (decide (wordAt h 0 ≠ 0x4E534C41) || decide (wordAt h 4 ≠ 1) || decide (h / 2 ^ 320 ≠ 0) || decide (wordAt h 0x10 % 128 ≠ 0)) 0x201
  .ok ⟨ctx, base, wordAt h 8, wordAt h 0xC, wordAt h 0x10, wordAt h 0x14, wordAt h 0x20, wordAt h 0x24⟩

/-- The name at an offset of the string table, or none when it does not end within it; `fuel` is what is left of the table. -/
def State.nameAt (s : State) (o : Obj) (off : Nat) : Nat → Except Nat (Option (List Byte))
  | 0 => .ok none
  | fuel + 1 => do
    let b ← s.look o.ctx (o.base + o.strs + off) 1
    if b = 0 then .ok (some [])
    else
      let rest ← s.nameAt o (off + 1) fuel
      .ok (rest.map fun bs => BitVec.ofNat 8 b :: bs)

/-- A kernel entry of 64 bytes with its name. -/
structure Entry where
  v : Nat
  name : Option (List Byte)
deriving DecidableEq, Repr

/-- Entry i of the kernel table. -/
def State.entryAt (s : State) (o : Obj) (i : Nat) : Except Nat Entry := do
  let v ← s.look o.ctx (o.base + o.ktab + 64 * i) 64
  let off := wordAt v 0
  let name ← s.nameAt o off (o.strN - off)
  .ok ⟨v, name⟩

/-- Whether an entry is its set's `any` entry. -/
def Entry.any (e : Entry) : Bool := bitN (wordAt e.v 4) 0

/-- Its signature. -/
def Entry.sig (e : Entry) : Nat := bits e.v 127 64

/-- Whether an entry breaks the rules of an object. -/
def Entry.bad (e : Entry) : Bool := decide (wordAt e.v 4 / 2 ≠ 0) || (e.any && decide (e.sig ≠ 0)) || e.name.isNone

/-- Whether a variant set breaks them: two `any` entries, or two of one signature. -/
def badSet (es : List Entry) : Bool :=
  let sigs := (es.filter fun e => !e.any).map Entry.sig
  es.any Entry.bad || decide (1 < (es.filter Entry.any).length) || decide (sigs.eraseDups.length ≠ sigs.length)

/-- The variant set of an indexed entry; an entry or a set that breaks the object's rules refuses the launch. -/
def State.variantSet (s : State) (o : Obj) (i : Nat) : Except Nat (List Entry) := do
  let e ← s.entryAt o i
  refuse e.bad 0x201
  let es ← (List.range o.count).mapM fun j => s.entryAt o j
  let set_ := es.filter fun x => x.name == e.name
  refuse (badSet set_) 0x201
  .ok set_

/-- The variant of a set: the entry of the package's signature, else the `any` entry. -/
def chooseVariant (sig : Nat) (es : List Entry) : Except Nat Entry :=
  match es.find? fun e => !e.any && e.sig == sig with
  | some e => .ok e
  | none => match es.find? Entry.any with
    | some e => .ok e
    | none => .error 0x301

/-- The kernel of an entry, without its list of buffers. -/
def Entry.kernel (e : Entry) : Kernel :=
  { name := e.name.getD [], any := e.any, sig := BitVec.ofNat 64 e.sig, entry := BitVec.ofNat 32 (wordAt e.v 0x10),
    count := BitVec.ofNat 32 (wordAt e.v 0x14), handlerIp := BitVec.ofNat 32 (wordAt e.v 0x18), desc := BitVec.ofNat 288 (bits e.v 511 224),
    cbufs := [] }

/-! ## Descriptors (R36, R39, R341) -/

/-- Whether a kernel declares a window for a role as R39 and R341 permit. -/
def Kernel.windowFits (k : Kernel) (r : Nat) : Bool :=
  let w := k.field (95 + 32 * r) (64 + 32 * r)
  if !bitN w 31 then decide (w = 0)
  else decide (r < k.field 8 6) && decide (bits w 15 9 = 0) && decide (bits w 30 25 = 0) &&
    decide (bits w 8 0 % 8 = 0) && decide (bits w 8 0 ≤ 504) && decide (bits w 24 16 % 8 = 0) && decide (8 ≤ bits w 24 16) &&
    decide (bits w 24 16 ≤ 256) && decide (bits w 8 0 + bits w 24 16 ≤ 512)

/-- Whether the kind-specific word of a descriptor is in range. -/
def Kernel.kspFits (k : Kernel) : Bool :=
  let w := k.field 223 192
  match k.field 12 11 with
  | 0 => decide (w = 0)
  | 1 => decide (bits w 2 0 ≤ 4) && decide (bits w 5 3 ≤ 2) && decide (12 ≤ bits w 10 6) && decide (bits w 10 6 ≤ 21) && decide (w / 2 ^ 11 = 0)
  | _ => decide (bits w 15 4 = 0) && decide (bits w 31 16 ≠ 0)

/-- Whether every field of a descriptor lies within R36, R39 and R341, but for its list of buffers. -/
def Kernel.fieldsFit (k : Kernel) : Bool :=
  let g := k.field 5 0
  let f := k.field 8 6
  let w := k.clusterW
  let h := k.clusterH
  let n := k.field 28 21
  decide (1 ≤ g) && decide (g ≤ 32) && decide (1 ≤ f) && decide (f ≤ 4) && decide (g % max 1 f = 0) && decide (g / max 1 f ≤ 8) &&
    decide (k.field 10 9 ≤ 2) && decide (k.field 12 11 ≤ 2) &&
    ((decide (w = 0) && decide (h = 0)) || (decide (1 ≤ w) && decide (w ≤ 12) && decide (1 ≤ h) && decide (h ≤ 8) && decide (w * h ≤ 12))) &&
    decide (n % 8 = 0) && decide (8 ≤ n) && decide (n ≤ 128) && decide (k.field 31 29 = 0) && decide (k.field 40 32 ≤ 256) &&
    decide (k.field 49 41 ≤ 256) && decide (k.field 54 50 ≤ 16) && decide (k.field 61 55 ≤ 64) && decide (k.field 63 62 = 0) &&
    ((List.range 4).all k.windowFits) && k.kspFits && (decide (k.field 12 11 = 0) || decide (w = 0))

/-- Whether an entry of a list of buffers is in range within a scratchpad. -/
def bufferFits (scratch v : Nat) : Bool :=
  let ns := bits v 11 4
  let base := bits v 31 12
  let size := bits v 47 32
  decide (v / 2 ^ 48 = 0) && decide (1 ≤ ns) && decide (base % 16 = 0) && decide (size % 16 = 0) && decide (16 ≤ size) && decide (size ≤ 65520) &&
    decide (base + ns * size ≤ scratch)

/-- The kernel with its list of buffers, when its descriptor and the list are in range (0x404). -/
def State.checkKernel (s : State) (o : Obj) (k : Kernel) : Except Nat Kernel := do
  refuse (!k.fieldsFit) 0x404
  let at_ := k.field 287 256
  if at_ = 0 then .ok k
  else
    let n ← s.look o.ctx (o.base + at_) 4
    refuse (decide (n < 1) || decide (16 < n)) 0x404
    let es ← (List.range n).mapM fun i => s.look o.ctx (o.base + at_ + 8 + 8 * i) 8
    let nos := es.map fun v => bits v 3 0
    refuse (decide (nos.eraseDups.length ≠ nos.length) || !es.all (bufferFits (4096 * k.field 40 32))) 0x404
    .ok { k with cbufs := es.map (BitVec.ofNat 64) }

/-! ## The record (R338, R339) -/

/-- A 32-bit word of a record. -/
def recWord (rec : List Byte) (off : Nat) : Nat := leN ((rec.drop off).take 4)

/-- A 64-bit word of a record. -/
def recLong (rec : List Byte) (off : Nat) : Nat := leN ((rec.drop off).take 8)

/-- Check 1 of R342, in the order of R446. -/
def checkRecord (rec : List Byte) (accepted : BitVec 128) : Except Nat Unit := do
  let c := recWord rec 0
  let kind := bits c 1 0
  let hen := bitN c 4
  let counts := recWord rec 0x1C
  let x := recWord rec 0x10
  let y := recWord rec 0x14
  let z := recWord rec 0x18
  let lo := recWord rec 0x38 % 2 ^ 16
  let hi := recWord rec 0x38 / 2 ^ 16
  let zero := fun off n : Nat => leN ((rec.drop off).take n) == 0
  refuse (decide (c / 2 ^ 8 ≠ 0) || decide (bits counts 15 9 ≠ 0) || decide (bits counts 31 25 ≠ 0) || !zero 0x3C 4 || !zero 0x78 8 ||
    !zero 0x9C 0x5C || (!hen && decide (recWord rec 4 / 2 ^ 16 ≠ 0)) || (decide (kind ≠ 1) && !zero 0x80 0x1C)) 0x101
  refuse (decide (kind = 3) || decide (bits c 3 2 = 3) || decide (bits c 7 6 = 3)) 0x102
  refuse (decide (x = 0) || decide (y = 0) || decide (z = 0) || decide (2 ^ 32 < x * y * z) || (decide (kind ≠ 0) && decide (x * y * z ≠ 1))) 0x103
  refuse (decide (hi < lo) || decide (32768 < hi)) 0x104
  let n := recWord rec 0x98
  refuse (decide (256 < bits counts 8 0) || decide (256 < bits counts 24 16) || decide (recLong rec 8 % 128 ≠ 0) ||
    decide (recLong rec 0x20 % 64 ≠ 0) ||
    (decide (kind = 1) && (decide (n < 16) || decide (2 ^ 24 < n) || decide (recLong rec 0x90 % 512 ≠ 0)))) 0x105
  refuse ((hen && !accepted.getLsbD 0) || (decide (kind = 1) && !accepted.getLsbD 2) || (decide (kind = 2) && !accepted.getLsbD 1)) 0x106

/-! ## The launch -/

/-- A table of n entries of z bytes. -/
def State.readTable (s : State) (ctx at_ z n : Nat) : Except Nat (List Nat) := (List.range n).mapM fun i => s.look ctx (at_ + z * i) z

/-- The lines of code that can be read now, and their bytes (R166). -/
def State.codeNow (s : State) (ctx base n : Nat) : List Nat × SMap Byte :=
  let lines := ((List.range ((20 * n + 127) / 128)).map fun i => base + 128 * i).filter fun va => match (s.translateNoCache ctx va .fetch).1 with
    | .ok _ => true
    | _ => false
  (lines, lines.foldl (fun m va => match (s.translateNoCache ctx va .fetch).1 with
    | .ok p =>
      let v := (s.homeRead p.key 128).1
      SMap.setLanes 0 m (va - base) (List.range 128) fun i => BitVec.ofNat 8 (v / 2 ^ (8 * i))
    | _ => m) [])

/-- The launch that a record names, its kernels chosen: checks 2 to 4 of R342. -/
def State.parse (s : State) (id queue recVa qctx : Nat) (rec : List Byte) : Except Nat Launch := do
  let c := recWord rec 0
  let kind := bits c 1 0
  let cls := bits c 3 2
  let hen := bitN c 4
  let counts := recWord rec 0x1C
  let ctx := recLong rec 0x20
  let index := recWord rec 4 % 2 ^ 16
  let cont := recWord rec 4 / 2 ^ 16
  refuse (decide (2 ^ 46 ≤ ctx) || !s.inPool ctx) 0x203
  let o ← s.readObj ctx (recLong rec 8)
  let handlers ← s.readTable ctx (recLong rec 0x60) 4 (bits counts 8 0)
  let nodes ← s.readTable ctx (recLong rec 0x68) 8 (bits counts 24 16)
  let used := (index :: (if hen then [cont] else []) ++ handlers).eraseDups
  let sets ← (used.filter fun i => decide (i < o.count)).mapM fun i => do
    let set_ ← s.variantSet o i
    .ok (i, set_)
  refuse (used.any fun i => decide (o.count ≤ i)) 0x202
  let chosen ← sets.mapM fun p => do
    let e ← chooseVariant s.pkg.signature.toNat p.2
    .ok (p.1, e)
  let raw := fun i => ((chosen.find? fun p => p.1 == i).map fun p => p.2.kernel).getD Kernel.blank
  let k := raw index
  refuse (decide (k.field 12 11 ≠ kind)) 0x401
  refuse (decide (k.field 10 9 ≠ cls) || (decide (kind ≠ 0) && decide (cls ≠ 2))) 0x402
  let oneFibre := fun k : Kernel => decide (k.field 5 0 = 1) && decide (k.field 8 6 = 1)
  refuse (hen && !(oneFibre (raw cont) && decide (24 ≤ ((raw cont).window 0).2))) 0x403
  let kernels ← chosen.mapM fun p => do
    let k ← s.checkKernel o p.2.kernel
    .ok (p.1, k)
  refuse (decide (kind ≠ 0) && decide (k.clusterW ≠ 0)) 0x404
  refuse (handlers.any fun h =>
    let k := raw h
    !(oneFibre k && decide (k.field 12 11 = 0) && decide (k.clusterW = 0) && decide (k.field 10 9 = 2) && decide (32 ≤ k.field 28 21))) 0x405
  refuse (decide (kind = 2) && !(oneFibre k && decide (k.nodeShape.1 ≤ (k.window 0).2))) 0x406
  let teams := if kind = 0 then recWord rec 0x10 * recWord rec 0x14 * recWord rec 0x18 else 0
  refuse (decide (k.clusterW ≠ 0) && decide (teams % (k.clusterW * k.clusterH) ≠ 0)) 0x407
  let code := s.codeNow ctx (o.base + o.code) o.codeN
  .ok { Launch.start id queue recVa qctx ctx s.now rec with
    kind := kind, cls := cls, hen := hen, mig := bitN c 5,
    kernels := kernels.foldl (fun m p => SMap.set Kernel.blank m p.1 p.2) [], kernel := index, cont := cont, handlers := handlers,
    nodes := nodes, code := code.2, codeBase := o.base + o.code, codeLines := code.1, bySig := chosen.any fun p => !p.2.any,
    isOpen := decide (kind ≠ 0), nTeams := teams }

/-! ## Placement (check 5 of R342, R60) -/

/-- The cores of the package that may hold work. -/
def State.activeCores (s : State) : List Nat := (List.range 2304).filter fun c => s.pkg.isActive (dieOf c) (c % 96)

/-- The machine as the placement test of R60 takes it: its cores empty. -/
def State.emptied (s : State) (l : Launch) : State := { s with teams := [], qteams := [], launches := [l] }

/-- Places the teams of a launch by the rules of R346, none started; `fuel` bounds the teams or clusters that the cores can hold. -/
def State.placeAll (s : State) (l : Launch) : Nat → Bool
  | 0 => false
  | fuel + 1 => match s.launch? l.id with
    | none => false
    | some l =>
      if l.nTeams ≤ l.nextTeam then
        (List.range 4).all fun t =>
          decide ((Demand.sum ((s.qteams.filter fun q => (q.at?.map towerOf) == some t).map fun q => (s.kernelOf q).demand)).entries ≤
            512 - 64 * popCount 8 (s.tower t).removed.toNat)
      else
        let s := s.draw l
        let down := fun s : State => match s.qteams.find? fun q => q.at?.isNone && !q.isAway with
          | some q => s.descend q
          | none => s
        let s := down (down (down (down (down s))))
        (s.qteams.all fun q => q.at?.isSome || q.isAway) && s.placeAll l fuel

/-- Check 5 of R342. -/
def State.checkPlaces (s : State) (l : Launch) : Except Nat Unit := do
  let k := l.kernelAt l.kernel
  let d := k.demand
  refuse (!(d.fits && s.activeCores.any fun c => decide (d.entries ≤ 512 - 64 * popCount 8 (s.tower (towerOf c)).removed.toNat))) 0x501
  let active := fun c => s.pkg.isActive (dieOf c) (c % 96)
  refuse (decide (k.clusterW ≠ 0) && !((List.range 24).any fun die => (rectFor die k.clusterW k.clusterH active).isSome)) 0x502
  refuse (decide (l.cls = 0) && !(s.emptied l).placeAll l (2304 * 16 + 1)) 0x503

/-- The launch of a record, or the code that refuses it (R342, R446). -/
def State.accept (s : State) (id queue recVa qctx : Nat) (rec : List Byte) : Except Nat Launch := do
  checkRecord rec s.pkg.accepted
  let l ← s.parse id queue recVa qctx rec
  s.checkPlaces l
  .ok l

/-! ## Completion (R344, R451) -/

/-- Writes the completion words of a record: the code, then the status, a release at rack scope (R344). -/
def State.writeCompletion (s : State) (qctx recVa status code : Nat) : State :=
  let s := (s.virtWrite qctx (recVa + 0xFC) 4 code).2
  (s.virtWrite qctx (recVa + 0xF8) 4 status).2

/-- Whether a queue is idle: nothing to consume, or stopped by an error, and none of its launches running (R333, R447). -/
def State.queueIdle (s : State) (q : UQueue) : Bool :=
  (decide (q.stoppedBy ≠ 0) || decide (q.rdptr = q.wrptr)) && !(s.launches.any fun l => l.queue == q.id)

/-- Notes when the queues became idle. -/
def State.noteIdle (s : State) : State :=
  { s with queues := s.queues.map fun q => { q with idleSince := if s.queueIdle q then some (q.idleSince.getD s.now) else none } }

/-- Whether the engine operations of a launch that have begun have completed (R329). -/
def State.begunDone (s : State) (l : Nat) : Bool :=
  s.teams.all fun t => t.launch != l || t.queues.all fun o => !o.begun || decide (o.queue = 7)

/-- Whether every team of a launch has ended and none is to come (R344, R345). -/
def State.allEnded (s : State) (l : Launch) : Bool :=
  !l.isOpen && decide (l.ended = l.nTeams) && decide (l.spawned = l.doneSpawned) && decide (l.batch.recs = []) &&
    decide (l.batch.incoming = []) && !(s.tasks.any fun t => t.launch == l.id) &&
    !(s.towers.any fun y => (y.hen.any fun r => r.launch == l.id) || y.deposits.any fun r => r.launch == l.id) &&
    !(s.msgs.any fun m => m.launch == l.id)

/-- Whether a launch completes now, with its status and code. -/
def State.completion (s : State) (l : Launch) : Option (Nat × Nat) :=
  match l.outcome with
  | some (status, code) => if s.begunDone l.id then some (status, code.toNat) else none
  | none => if s.allEnded l && decide (l.state = .running) then some (1, 0) else none

/-- Everything that a launch leaves goes: its teams, queued, resident and saved, its tasks, records, messages and log entries. -/
def State.dropLaunch (s : State) (l : Nat) : State :=
  let mine := (s.teams.filter fun t => t.launch == l).map Team.id ++ (s.saved.filter fun x => x.team.launch == l).map fun x => x.team.id
  let s := (s.teams.filter fun t => t.launch == l).foldl (fun s t => (s.writeBackAll t.core).removeTeam t) s
  let keep := fun y : Tower => { y with
    hen := y.hen.filter fun r => r.launch != l, deposits := y.deposits.filter fun r => r.launch != l,
    beats := y.beats.filter fun b => b.isHeld || decide (b.team ≠ 0) || b.op != l }
  let s := { s with
    launches := s.launches.filter fun x => x.id != l, qteams := s.qteams.filter fun q => q.launch != l,
    saved := s.saved.filter fun x => x.team.launch != l, tasks := s.tasks.filter fun t => t.launch != l,
    tiles := s.tiles.filter fun r => r.launch != l, msgs := s.msgs.filter fun m => m.launch != l,
    sideLog := s.sideLog.filter fun e => !mine.contains e.team, towers := s.towers.map keep }
  let s := (s.fibres.filter fun f => decide (f.waits = .table)).foldl (fun s f => s.wake f.id) s
  s.cores.foldl (fun s c => (s.wakeRoom c.id).wakeLogRoom c.id) s

/-- LAUNCH_COMPLETE (R344, R451). -/
def execLaunchComplete (l : Nat) (s : State) : Host.Outcome State Fault Refusal :=
  match s.launch? l with
  | none => .next s
  | some x => match s.completion x with
    | some (status, code) => .next (((s.dropLaunch l).writeCompletion x.qctx x.recVa status code).noteIdle)
    | none => .next s

/-! ## The watchdog (R450) -/

/-- Whether the watchdog of a launch has expired. -/
def State.watchdogDue (s : State) (l : Launch) : Bool := l.runs && decide (l.watchdog + 2 ^ 36 ≤ s.now)

/-- The watchdog's code. -/
def State.watchdogCode (s : State) (l : Launch) : Nat :=
  let ts := s.teams.filter fun t => t.launch == l.id
  let fs := s.fibres.filter fun f => ts.any fun t => t.id == f.team
  let n := (fs.filter fun f => decide (f.run = .parked) || decide (f.run = .barrier) || decide (f.run = .held)).length
  let flt := fs.any fun f => decide (f.run = .held) && (match f.waits with
    | .granules .. => true
    | _ => false)
  min 65535 n + b2n flt * 2 ^ 16 + b2n (ts.any fun t => decide (t.lease = .waiting)) * 2 ^ 17

/-- WATCHDOG_EXPIRY (R450). -/
def execWatchdogExpiry (l : Nat) (s : State) : Host.Outcome State Fault Refusal :=
  match s.launch? l with
  | none => .next s
  | some x =>
    if s.watchdogDue x then
      let code := s.watchdogCode x
      .next ((s.errorRecord 3 2 4 127 31 s.anyTower [(0x18, 8, x.recVa), (0x20, 4, code)]).endLaunch l 4 code)
    else .next s

end Sys2Proof.Machine
end

