-- ==== Sys2Proof/Machine/Queue.lean ====
section
/-! DEFINITION. The queue scheduler: kicks and slots (R330 to R337), the commands of a ring (R331, R342, R345, R405) and queue errors
(R447). -/

namespace Sys2Proof.Machine

/-! ## The scheduler core -/

/-- Whether a firmware core of the package serves events: booted, the package not fatal, the core up and
not being handed over (R403, R407, R477, R479). -/
def State.serves (s : State) (core : Nat) : Bool :=
  decide (s.pkg.boot = .up) && decide (s.pkg.fatal = none) && !((s.pkg.fw.getD core FwCore.reset).down) &&
    ((s.pkg.fw.getD core FwCore.reset).handover).isNone

/-- A queue by its name. -/
def State.queue? (s : State) (q : Nat) : Option UQueue := s.queues.find? fun x => x.id == q

/-- An acquire by a firmware core, at rack scope, of n bytes: the cores that the tags of their lines name are promoted (R153). -/
def State.acquireBytes (s : State) (ctx va n : Nat) : State :=
  (List.range ((n + 127) / 128 + 1)).foldl (fun s i =>
    match (s.translateNoCache ctx (min (va + 128 * i) (va + n - 1)) .read).1 with
    | .ok p => s.serveTag (lineOf p.key) 2304
    | _ => s) s

/-- Reads n bytes as an acquire at rack scope (R331, R332). -/
def State.acquireRead (s : State) (ctx va n : Nat) : Option Nat × State := (s.acquireBytes ctx va n).virtRead ctx va n

/-! ## Queue control blocks (R330) -/

/-- The code of a queue state. -/
def QState.code : QState → Nat
  | .unmapped => 0
  | .pending => 1
  | .mapped => 2

/-- The effective priority now (R336). -/
def UQueue.eprioAt (q : UQueue) (now : Nat) : Nat := if q.state = .pending then min 7 (q.prio + (now - q.psince) / 2 ^ 16) else q.prio

/-- Saves a block: the fields that software may only read. -/
def State.saveQcb (s : State) (q : UQueue) : State :=
  let half := q.prio + q.eprioAt s.now * 2 ^ 3 + q.state.code * 2 ^ 6 + b2n (decide (q.state = .pending)) * 2 ^ 8 +
    (if q.state = .mapped then q.slot else 0) * 2 ^ 9
  let s := (s.virtWrite q.ctx (q.qcb + 12) 4 q.rdptr.toNat).2
  let s := (s.virtWrite q.ctx (q.qcb + 16) 4 q.wrptr.toNat).2
  let s := (s.virtWrite q.ctx (q.qcb + 20) 2 half).2
  let s := (s.virtWrite q.ctx (q.qcb + 24) 8 q.lsig).2
  (s.virtWrite q.ctx (q.qcb + 32) 8 q.psince).2

/-! ## Slots (R333 to R335) -/

/-- The queues that hold slots. -/
def State.mappedQueues (s : State) : List UQueue := s.queues.filter fun q => decide (q.state = .mapped)

/-- The limit of a partition (log 4: 64 until it is set). -/
def State.limitOf (s : State) (part : Nat) : Nat :=
  match SMap.get 0 s.pkg.plimits part with
  | 0 => 64
  | n => n

/-- The lowest slot that is free for a partition. -/
def State.freeSlot (s : State) (part : Nat) : Option Nat :=
  if s.limitOf part ≤ (s.mappedQueues.filter fun q => q.part == part).length then none
  else (List.range 64).find? fun n => !s.mappedQueues.any fun q => q.slot == n

/-- Loads a queue into a slot. -/
def State.mapQueue (s : State) (q slot : Nat) : State :=
  s.modQueue q fun x => { x with state := .mapped, slot := slot, eprio := x.prio }

/-- A Mapped queue gives up its slot: a WAIT in progress is read again later. -/
def State.unmapQueue (s : State) (q : Nat) : State :=
  let waits := fun x : UQueue => decide (x.wrptr ≠ x.rdptr)
  let s := s.modQueue q fun x =>
    if waits x then { x with state := .pending, slot := 0, psince := s.now, watching := false, saving := false }
    else { x with state := .unmapped, slot := 0, watching := false, saving := false }
  let s := { s with watches := s.watches.filter fun w => w.queue != some q }
  match s.queue? q with
  | some x => s.saveQcb x
  | none => s

/-- Whether one Pending queue goes before another: the higher EPRIO, then the earlier PSINCE, then the lower QCB address. -/
def UQueue.before (a b : UQueue) (now : Nat) : Bool :=
  decide (b.eprioAt now < a.eprioAt now) ||
    (decide (a.eprioAt now = b.eprioAt now) && (decide (a.psince < b.psince) || (decide (a.psince = b.psince) && decide (a.qcb < b.qcb))))

/-- Free slots go to Pending queues, one after the other; `fuel` bounds their number. -/
def State.fillSlots (s : State) : Nat → State
  | 0 => s
  | fuel + 1 =>
    let waiting := s.queues.filter fun q => decide (q.state = .pending) && (s.freeSlot q.part).isSome
    match waiting.foldl (fun best q => match best with
        | none => some q
        | some b => if q.before b s.now then some q else some b) (none : Option UQueue) with
    | none => s
    | some q => (s.mapQueue q.id ((s.freeSlot q.part).getD 0)).fillSlots fuel

/-- Whether one queue is the better victim: the older LSIG, then the lower slot. -/
def UQueue.older (a b : UQueue) : Bool := decide (a.lsig < b.lsig) || (decide (a.lsig = b.lsig) && decide (a.slot < b.slot))

/-- The victim for a kicking queue (R334). -/
def State.victim (s : State) (k : UQueue) : Option UQueue :=
  (s.mappedQueues.filter fun q => q.part == k.part && decide (q.eprioAt s.now ≤ k.eprioAt s.now) && !q.saving).foldl
    (fun best q => match best with
      | none => some q
      | some b => if q.older b then some q else some b) none

/-! ## Errors (R447) -/

/-- A queue stops at its command with an error. -/
def State.queueError (s : State) (q : Nat) (code : Nat) : State :=
  match s.queue? q with
  | none => s
  | some x =>
    let s := s.errorRecord 4 1 4 127 31 s.anyTower [(0x18, 8, x.qcb), (0x20, 4, x.rdptr.toNat), (0x24, 4, code)]
    (s.modQueue q fun x => { x with stoppedBy := code, watching := false }).noteIdle

/-! ## Kicks (R332, R333, R337) -/

/-- The doorbell as it stands. -/
def State.doorbell (s : State) (q : UQueue) : Option Nat := (s.virtRead q.ctx q.dbell 4).1

/-- Where the doorbell word of a queue lies now. -/
def State.bellOf (s : State) (q : UQueue) : Option Nat :=
  match (s.translateNoCache q.ctx q.dbell .read).1 with
  | .ok p => some p.key
  | _ => none

/-- The scheduler looks up every doorbell that it watches (R333). -/
def State.findBells (s : State) : State := { s with queues := s.queues.map fun q => { q with bell := s.bellOf q } }

/-- Whether a kick of a queue waits for the scheduler, which takes none before ACCEPT (R405); one that cannot be read is an error. -/
def State.kickDue (s : State) (q : UQueue) : Bool :=
  s.serves 2 && s.pkg.acceptDone && !q.saving && (q.rung || (decide (s.doorbell q = none) && decide (q.stoppedBy = 0)))

/-- Whether the idle timeout of a queue has lapsed (R333). -/
def State.idleDue (s : State) (q : UQueue) : Bool :=
  s.serves 2 && decide (q.state = .mapped) && !q.saving && ((q.idleSince.map fun c => decide (c + 2 ^ 18 ≤ s.now)).getD false)

/-- Whether a kick is the next event of the scheduler: idle timeouts come first, and then the lowest QCB address (R337). -/
def State.kickNext (s : State) (q : UQueue) : Bool :=
  s.kickDue q && s.queues.all fun x => !s.idleDue x && (decide (q.qcb ≤ x.qcb) || !s.kickDue x)

/-- A queue that is not Mapped takes a slot, or a victim's, or waits. -/
def State.seekSlot (s : State) (q : UQueue) : State :=
  match s.freeSlot q.part with
  | some n => s.mapQueue q.id n
  | none => match s.victim q with
    | some v => (s.unmapQueue v.id).mapQueue q.id v.slot
    | none => s.modQueue q.id fun x => if x.state = .pending then x else { x with state := .pending, psince := s.now }

/-- The scheduler takes a kick. -/
def State.takeKick (s : State) (q : UQueue) : State :=
  match s.acquireRead q.ctx q.dbell 4 with
  | (none, s) => s.queueError q.id 4
  | (some v, s) =>
    let w := BitVec.ofNat 32 v
    let s := s.modQueue q.id fun x => { x with rung := false, wrptr := w, lsig := s.now }
    match s.queue? q.id with
    | none => s
    | some x =>
      if x.stoppedBy ≠ 0 then s.noteIdle
      else if 2 ^ x.log2n < (x.wrptr - x.rdptr).toNat then s.queueError q.id 3
      else if x.state = .mapped then s.noteIdle
      else (s.seekSlot x).noteIdle

/-- KICK (R332, R333). -/
def execKick (q : Nat) (s : State) : Host.Outcome State Fault Refusal :=
  match s.queue? q with
  | some x => if s.kickNext x then .next (s.takeKick x) else .next s
  | none => .next s

/-- IDLE_TIMEOUT (R333): the save of the block begins. -/
def execIdleTimeout (q : Nat) (s : State) : Host.Outcome State Fault Refusal :=
  match s.queue? q with
  | some x => if s.idleDue x then .next (s.modQueue q fun x => { x with saving := true }) else .next s
  | none => .next s

/-- Whether the save of a block can complete: idle timeouts of the same cycle come first (R337). -/
def State.saveReady (s : State) (q : UQueue) : Bool := s.serves 2 && q.saving && s.queues.all fun x => !s.idleDue x

/-- QCB_SAVE_COMPLETE (R333, R337): the slot is free, for a Pending queue; a kick held meanwhile is taken now. -/
def execQcbSaveComplete (q : Nat) (s : State) : Host.Outcome State Fault Refusal :=
  match s.queue? q with
  | some x => if s.saveReady x then .next ((s.unmapQueue q).fillSlots s.queues.length) else .next s
  | none => .next s

/-- Whether a queue's effective priority has risen (R336). -/
def State.ageingDue (s : State) (q : UQueue) : Bool := s.serves 2 && decide (q.state = .pending) && decide (q.eprio ≠ q.eprioAt s.now)

/-- EPRIO_AGEING (R336). -/
def execEprioAgeing (q : Nat) (s : State) : Host.Outcome State Fault Refusal :=
  match s.queue? q with
  | some x => if s.ageingDue x then .next (s.modQueue q fun x => { x with eprio := x.eprioAt s.now }) else .next s
  | none => .next s

/-! ## Commands (R331, R336) -/

/-- The 32 bytes of a queue's next command. -/
def State.command (s : State) (q : UQueue) : Option Nat := (s.virtRead q.ctx (q.rbase + 32 * (q.rdptr.toNat % 2 ^ q.log2n)) 32).1

/-- The type of a command. -/
def cmdType (c : Nat) : Nat := c % 256
/-- Its address. -/
def cmdAddr (c : Nat) : Nat := bits c 127 64
/-- Its value. -/
def cmdValue (c : Nat) : Nat := bits c 191 128

/-- The error of a command before its type is looked at: 0 for none. -/
def cmdError (c : Nat) : Nat :=
  if cmdType c = 0 ∨ 5 < cmdType c then 1 else if bits c 63 8 ≠ 0 ∨ bits c 255 192 ≠ 0 then 2 else 0

/-- The step that takes a queue's next command: that of its type; a command that cannot be read, or of no type, is the parser's. -/
def State.commandStep (s : State) (q : UQueue) : Nat :=
  match s.command q with
  | some c => if cmdError c = 1 then 1 else cmdType c
  | none => 1

/-- Whether a queue has no launch that runs. -/
def State.noLaunches (s : State) (q : UQueue) : Bool := !s.launches.any fun l => l.queue == q.id

/-- Whether a queue's next command can be taken: launches wait for the accepted vector (R405), barriers and signals for the queue's
earlier launches, a WAIT that has been read for its watch. -/
def State.takeable (s : State) (q : UQueue) : Bool :=
  decide (q.state = .mapped) && decide (q.stoppedBy = 0) && !q.saving && decide (q.rdptr ≠ q.wrptr) &&
    (match s.command q with
    | none => true
    | some c =>
      if cmdError c ≠ 0 then true
      else match cmdType c with
        | 1 => s.pkg.acceptDone && s.serves 1
        | 2 | 3 => s.noLaunches q
        | 4 => !q.watching
        | _ => true)

/-- The queue whose command the front end takes next: of highest PRIO, round-robin by slot among equals. -/
def State.frontQueue (s : State) : Option UQueue :=
  if !s.serves 2 then none
  else
    let qs := s.queues.filter s.takeable
    let top := (qs.map UQueue.prio).foldl max 0
    ((List.range 64).map fun k => (s.pkg.commandRr + 1 + k) % 64).findSome? fun n => qs.find? fun q => q.slot == n && q.prio == top

/-- A command is consumed. -/
def State.consumed (s : State) (q : UQueue) : State :=
  ((s.modQueue q.id fun x => { x with rdptr := x.rdptr + 1, watching := false }).modPkg fun p => { p with commandRr := q.slot }).noteIdle

/-- Takes a queue's next command when it is the front queue's and of a step's type; its ring is read as an acquire. -/
def State.take (s : State) (q step : Nat) (body : State → UQueue → Nat → State) : State :=
  match s.frontQueue with
  | none => s
  | some x =>
    if x.id ≠ q ∨ s.commandStep x ≠ step then s
    else match s.acquireRead x.ctx (x.rbase + 32 * (x.rdptr.toNat % 2 ^ x.log2n)) 32 with
      | (none, s) => s.queueError q 4
      | (some c, s) => if cmdError c ≠ 0 then s.queueError q (cmdError c) else body s x c

/-- LAUNCH: the record is read and accepted, or refused at once (R342, R446, R457: the completion words are not read). -/
def State.takeLaunch (s : State) (q : UQueue) (c : Nat) : State :=
  let at_ := cmdAddr c
  if at_ % 256 ≠ 0 then s.queueError q.id 5
  else match s.acquireRead q.ctx at_ 0xF8 with
    | (none, s) => s.queueError q.id 4
    | (some v, s) =>
      let (id, s) := s.fresh
      let s := match s.accept id q.id at_ q.ctx (toLe 0xF8 v) with
        | .ok l => { s with launches := s.launches ++ [l] }
        | .error code => s.writeCompletion q.ctx at_ 3 code
      s.consumed q

/-- LAUNCH (R331, R342). -/
def execLaunch (q : Nat) (s : State) : Host.Outcome State Fault Refusal := .next (s.take q 1 State.takeLaunch)

/-- BARRIER (R331). -/
def execBarrier (q : Nat) (s : State) : Host.Outcome State Fault Refusal := .next (s.take q 2 fun s q _ => s.consumed q)

/-- SIGNAL (R331): a release store of 8 bytes. -/
def State.takeSignal (s : State) (q : UQueue) (c : Nat) : State :=
  if cmdAddr c % 8 ≠ 0 then s.queueError q.id 7
  else match s.virtWrite q.ctx (cmdAddr c) 8 (cmdValue c) with
    | (true, s) => s.consumed q
    | (false, s) => s.queueError q.id 7

/-- SIGNAL (R331). -/
def execSignal (q : Nat) (s : State) : Host.Outcome State Fault Refusal := .next (s.take q 3 State.takeSignal)

/-- The test of a WAIT: an acquire load; below the value, the word is watched. -/
def State.waitTest (s : State) (q : UQueue) (c : Nat) : State :=
  if cmdAddr c % 8 ≠ 0 then s.queueError q.id 7
  else match s.acquireRead q.ctx (cmdAddr c) 8 with
    | (none, s) => s.queueError q.id 7
    | (some v, s) =>
      if cmdValue c ≤ v then s.consumed q
      else
        let s := s.modQueue q.id fun x => { x with watching := true }
        match (s.translateNoCache q.ctx (cmdAddr c) .read).1 with
        | .ok p => s.addWatch { line := lineOf p.key, bank := s.bankOf p, fid := none, queue := some q.id, core := 2304 }
        | _ => s

/-- WAIT (R331). -/
def execWait (q : Nat) (s : State) : Host.Outcome State Fault Refusal := .next (s.take q 4 State.waitTest)

/-- Whether a WAIT under a watch has been woken: its watch is gone. -/
def State.recheckDue (s : State) (q : UQueue) : Bool :=
  s.serves 2 && decide (q.state = .mapped) && decide (q.stoppedBy = 0) && !q.saving && q.watching && !s.watches.any fun w => w.queue == some q.id

/-- WAIT_RECHECK (R331). -/
def execWaitRecheck (q : Nat) (s : State) : Host.Outcome State Fault Refusal :=
  match s.queue? q with
  | some x =>
    if s.recheckDue x then
      match s.command x with
      | some c => .next (s.waitTest x c)
      | none => .next (s.queueError q 4)
    else .next s
  | none => .next s

/-- CLOSE: an open task or node launch is closed (R345). -/
def State.takeClose (s : State) (q : UQueue) (c : Nat) : State :=
  match s.launches.find? fun l => l.recVa == cmdAddr c && l.qctx == q.ctx && l.isOpen && decide (l.outcome = none) with
  | none => s.queueError q.id 6
  | some l =>
    let s := (s.closeNode l).modLaunch l.id fun l => { l with isOpen := false }
    s.consumed q

/-- CLOSE (R345). -/
def execClose (q : Nat) (s : State) : Host.Outcome State Fault Refusal := .next (s.take q 5 State.takeClose)

end Sys2Proof.Machine
end

