-- ==== Sys2Proof/Machine/Preempt.lean ====
section
/-! DEFINITION. Pre-emption and restore of launches (R86, R136, R166, R354 to R356, R440, R452, R453, R466). -/

namespace Sys2Proof.Machine

/-! ## The run of a stop (R355, R452) -/

/-- The runs of a save pool that are taken, lowest first. -/
def State.poolRuns (s : State) (ctx : Nat) : List (Nat × Nat) :=
  let insert := fun (p : Nat × Nat) (ps : List (Nat × Nat)) => (ps.filter fun q => q.1 < p.1) ++ [p] ++ ps.filter fun q => p.1 ≤ q.1
  ((s.launches.filter fun l => l.ctx == ctx).flatMap fun l => l.savedRuns.map fun r => (r.base, r.len)).foldr insert []

/-- The first place from an address on where n bytes are free between the runs taken. -/
def firstGap (n : Nat) : Nat → List (Nat × Nat) → Nat
  | at_, [] => at_
  | at_, r :: rs => if at_ + n ≤ r.1 then at_ else firstGap n (max at_ (r.1 + r.2)) rs

/-- The lowest-addressed free run of n bytes of a context's save pool. -/
def State.findRun (s : State) (ctx n : Nat) : Option Nat :=
  let base := (s.physRead (ctx + 8) 8).1
  let size := (s.physRead (ctx + 16) 8).1
  let at_ := firstGap n base (s.poolRuns ctx)
  if at_ + n ≤ base + size then some at_ else none

/-- The largest save area of the kernels of some teams. -/
def State.areaSize (s : State) (l : Launch) (ts : List Team) : Nat := (ts.map fun t => (l.kernelAt t.kernel).saveSize).foldl max 0

/-- Teams of a launch stop, once a run for their areas has been found; none when there is none. -/
def State.stopTeams (s : State) (l : Launch) (ts : List Team) : Option State :=
  let z := s.areaSize l ts
  let names := ts.map Team.id
  let stop := fun s : State =>
    { s with teams := s.teams.map fun t => if names.contains t.id then { t with stopped := true } else t }
  if ts = [] then some s
  else (s.findRun l.ctx (z * ts.length)).map fun base =>
    stop (s.modLaunch l.id fun l => { l with savedRuns := l.savedRuns ++ [⟨base, z * ts.length, z, 0⟩] })

/-- The resident teams of a launch. -/
def State.teamsOf (s : State) (l : Nat) : List Team := s.teams.filter fun t => t.launch == l

/-- A launch stops whole: admission ends, every resident team stops (R355), and the granted range of every tower's window is to be
saved (R136); none when its save pool is too small. -/
def State.stopWhole (s : State) (l : Launch) : Option State :=
  let ts := s.teamsOf l.id
  (s.stopTeams l ts).map fun s =>
    { s with qteams := s.qteams.filter fun q => q.launch != l.id || q.restore.isNone }.modLaunch l.id fun l =>
      { l with
        state := .stopping, savedWins := (List.range 4).map fun t => (t, []) }

/-- A stop that cannot be refused: without a run the launch ends (R452). -/
def State.forceStop (s : State) (l : Launch) (stop : State → Launch → Option State) : State :=
  match stop s l with
  | some s => s
  | none => (s.errorRecord 7 2 4 127 31 s.anyTower [(0x18, 8, l.recVa), (0x20, 4, 0xFFFF0001)]).endLaunch l.id 2 0xFFFF0001

/-- The work of a tower stops as a rack-wide pre-emption (R31, R354), also that of a launch whose restore has made teams resident there. -/
def State.stopTower (s : State) (tower : Nat) : State :=
  let ls := s.launches.filter fun l =>
    (l.runs || (decide (l.outcome = none) && decide (l.state = .restoring))) && (s.teamsOf l.id).any fun t => decide (towerOf t.core = tower)
  ls.foldl (fun s l => match s.launch? l.id with
    | some l => s.forceStop l State.stopWhole
    | none => s) s

/-! ## Priority (R354) -/

/-- The priority of a launch's queue. -/
def State.prioOf (s : State) (l : Launch) : Option Nat := (s.queue? l.queue).map UQueue.prio

/-- The queued team for which a launch has waited longest. -/
def State.waitingTeam (s : State) (l : Launch) : Option QTeam :=
  s.qteams.find? fun q => q.launch == l.id && q.restore.isNone && decide (q.since + 2 ^ 16 ≤ s.now)

/-- Whether a queued team can be admitted once it has come down to a core, as the cores are filled now; `fuel` bounds the levels. -/
def State.couldStart (s : State) (q : Nat) : Nat → Bool
  | 0 => false
  | fuel + 1 => match s.qteams.find? fun x => x.id == q with
    | none => false
    | some x => s.admissible x || (s.descends x && (s.descend x).couldStart q fuel)

/-- Whether a launch of a Mapped queue has waited long enough for admission, and no stop is in progress that may serve it. -/
def State.waitsLong (s : State) (l : Launch) : Bool :=
  l.runs && ((s.queue? l.queue).map fun q => decide (q.state = .mapped)).getD false &&
    ((s.waitingTeam l).map fun q => !s.couldStart q.id 5).getD false && !(s.teams.any fun t => t.stopped)

/-- Inserts a launch before those that pre-emption takes later: lower priority first, then the one that started last. -/
def insertVictim (p : Nat × Launch) : List (Nat × Launch) → List (Nat × Launch)
  | [] => [p]
  | q :: qs => if p.1 < q.1 ∨ (p.1 = q.1 ∧ q.2.started < p.2.started) then p :: q :: qs else q :: insertVictim p qs

/-- The launches that may be pre-empted for a priority, in the order in which they are tried. -/
def State.victims (s : State) (prio : Nat) : List Launch :=
  ((s.launches.filterMap fun l => match s.prioOf l with
    | some p => if l.runs && decide (p + 2 ≤ prio) && decide (s.teamsOf l.id ≠ []) then some (p, l) else none
    | none => none).foldr insertVictim []).map Prod.snd

/-- The team of a launch that started last; of equals, the one with the highest index. -/
def State.lastTeam (s : State) (l : Launch) : Option Team :=
  (s.teamsOf l.id).foldl (fun best t => match best with
    | none => some t
    | some b => if b.started < t.started ∨ (b.started = t.started ∧ b.index < t.index) then some t else some b) none

/-- A victim loses one team with its cluster when it is weakly parallel, or is stopped whole. -/
def State.stopVictim (s : State) (l : Launch) : Option State :=
  if l.cls = 2 then (s.lastTeam l).bind fun t => s.stopTeams l (s.clusterTeams t) else s.stopWhole l

/-- ADMISSION_WAIT_PREEMPT (R354, R452): the first victim whose save pool has room. -/
def execAdmissionWaitPreempt (l : Nat) (s : State) : Host.Outcome State Fault Refusal :=
  match s.launch? l with
  | none => .next s
  | some x =>
    if !s.waitsLong x then .next s
    else .next (((s.victims ((s.prioOf x).getD 0)).findSome? fun v => s.stopVictim v).getD s)

/-! ## Saving a team (R86, R166, R355, R440) -/

/-- Whether a queue holds nothing that performs before the save: it is empty, or its head is held on a page, behind operations that are
saved, without a slot of its buffer, or waits for rows in the side log. -/
def State.queueStuck (s : State) (t : Team) (q : Nat) : Bool :=
  match t.queue q with
  | [] => true
  | o :: _ => o.held.isSome || s.anyLives o.after || (decide (o.kind = .cpcb) && o.lacksSlot t) ||
      (decide (o.kind = .app) && decide (o.appLanes.length < o.pos) && s.sideLog.any fun e => decide (e.owner = some o.id))

/-- Whether a team that is stopped can be saved now: no trap to enter, no access or call under way, no result outstanding but those of
operations and draws that are saved, no commit and no end of its own due. -/
def State.saveableNow (s : State) (t : Team) : Bool :=
  let fs := s.fibres.filter fun f => f.team == t.id
  let kept := t.queues.filterMap EngOp.result ++ (s.draws.filter fun d => d.team == t.id).map NoiseDraw.result
  fs.all (fun f => decide (f.pending = none) && (s.results.all fun r => r.fid != f.id || kept.contains r.id) &&
      s.calls.all fun c => c.fid != f.id) &&
    (s.ops.all fun o => o.team != t.id) && ((List.range 6).all fun q => s.queueStuck t (q + 1)) && !s.commitArrived t && !s.teamOver t

/-- Whether a unit that a save would read is uncorrectable (R466): registers, tiles, accumulators and the scratchpad of a team. -/
def Team.isBad (t : Team) : Bool := decide (t.bad ≠ [])

/-- A fibre as it is saved: Parked and Held fibres will issue their instruction again, lanes for which a word is reserved wait
again, and a window that it has claimed is its window (R268). -/
def Fibre.saved (f : Fibre) : Fibre :=
  let w := f.winNext.getD (f.winBase, f.winSize)
  let f := { f with
    waiting := f.waiting ||| f.reserved, reserved := 0, hazards := [], notBefore := 0, winBase := w.1, winSize := w.2, winNext := none }
  match f.run with
  | .ended | .barrier | .held => f
  | _ => { f with run := .ready, waits := .none }

/-- A fibre whose draws wait will issue them again: their lanes stand at the first of them, and its arrival at a barrier is withdrawn
(R86; log 18). -/
def Fibre.undraw (ds : List NoiseDraw) (f : Fibre) : Fibre :=
  let mine := ds.filter fun d => d.fid == f.id
  if mine = [] ∨ f.run = .ended then f
  else
    { f with
      ips := mine.foldr (fun d m => SMap.setLanes 0 m 0 (lanesOf (d.lanes &&& f.live)) fun _ => d.ip) f.ips, run := .ready,
      waits := .none }

/-- A barrier without the arrivals of some fibres. -/
def Barr.without (ids : List Nat) (b : Barr) : Barr := { b with arrived := b.arrived.filter fun i => !ids.contains i }

/-- A team without the arrivals of some fibres that wait at a barrier. -/
def Team.withdraw (ids : List Nat) (t : Team) : Team :=
  { t with
    bars := t.bars.map fun p => (p.1, p.2.without ids), fbars := t.fbars.map fun p => (p.1, p.2.without ids),
    cbar := t.cbar.without ids, commit := t.commit.without ids }

/-- A team is written to its area and leaves its core; its side-log entries are parked at core 3. -/
def State.saveTeam (s : State) (l : Launch) (t : Team) : State :=
  match l.savedRuns.getLast? with
  | none => s
  | some r =>
    let s := s.writeBackAll t.core
    let ids := (s.fibres.filter fun f => decide (f.run = .barrier) && s.draws.any fun d => d.fid == f.id).map Fibre.id
    let fs := (s.fibres.filter fun f => f.team == t.id).map fun f => (f.undraw s.draws).saved
    let t := t.withdraw ids
    let area := r.base + r.size * r.used
    let mine := fun x : Result => fs.any fun f => f.id == x.fid
    let x : SavedTeam := { team := t, fibres := fs, results := s.results.filter fun r => mine r && s.draws.all fun d => d.result != r.id, area := area, run := r.base, addL := 0, addR := 0 }
    let s := s.writeArea l.ctx area (t.image fs)
    let s := s.removeTeam t
    let log := s.sideLog.map fun e => if e.team = t.id then { e with parked := true } else e
    let s := { s with sideLog := log, saved := s.saved ++ [x] }
    (s.modLaunch l.id fun l =>
      { l with savedRuns := replaceBy (fun y => y.base == r.base) (fun y => { y with used := y.used + 1 }) l.savedRuns }).wakeRoom t.core

/-- A task that has not committed is discarded: it is Ready again, without its versions (R58, R352). -/
def State.discardTask (s : State) (t : Team) (e : Nat) : State :=
  let s := (s.writeBackAll t.core).removeTeam t
  let s := { s with sideLog := s.sideLog.filter fun x => x.team != t.id }
  (((s.modTask e fun k => { k with state := .ready, versions := [], heldVa := none }).freeRuns t.launch).wakeRoom t.core).wakeLogRoom t.core

/-- A saved team goes back to the distributors, to be restored; a group of a Hen to that of its tower (R69). -/
def State.queueSaved (s : State) (x : SavedTeam) : State :=
  let t := x.team
  let q : QTeam :=
    { id := s.nextId, launch := t.launch, origin := t.origin, index := t.index, kernel := t.kernel,
      level := if t.origin = .hen then .tower (towerOf t.core) else .pkg, cluster := t.cluster,
      clusterSize := t.clusterSize, crank := t.crank, placed := [], live := 0, restore := some t.id, since := s.now }
  { s with nextId := s.nextId + 1, qteams := s.qteams ++ [q] }

/-- One stopped team of a launch is saved or discarded; a bad unit ends the launch instead (R466). A team that a launch loses alone is
queued for its restore at once. -/
def State.stopOne (s : State) (l : Launch) (t : Team) : State :=
  if t.isBad then
    (s.errorRecord 7 2 4 127 31 s.anyTower [(0x18, 8, l.recVa), (0x20, 4, 0xFFFF0004)]).endLaunch l.id 2 0xFFFF0004
  else match t.origin, t.committed with
    | .task e, false => s.discardTask t e
    | _, _ =>
      let s := s.saveTeam l t
      if l.state = .running then
        match s.saved.find? fun x => x.team.id == t.id with
        | some x => s.queueSaved x
        | none => s
      else s

/-- The stopped teams of a launch that can be saved now. -/
def State.toSave (s : State) (l : Nat) : List Team := (s.teamsOf l).filter fun t => t.stopped && s.saveableNow t

/-- Whether a stop has come to its end: no team of the launch is resident. -/
def State.stopDone (s : State) (l : Launch) : Bool := decide (l.state = .stopping) && decide (s.teamsOf l.id = [])

/-- The launch is Saved, and its batch's timer stands still (R348): the granted range of the towers it was stopped on is saved from their shadows (R136). -/
def State.launchSaved (s : State) (l : Launch) : State :=
  let inside := fun p : Nat × Byte => decide (l.grant.1 ≤ p.1) && decide (p.1 < l.grant.2)
  s.modLaunch l.id fun l =>
    { l with
      state := .saved, savedWins := l.savedWins.map fun w => (w.1, (s.tower w.1).shadow.filter inside),
      batch := { l.batch with timer := l.batch.timer.map fun t => t - s.now } }

/-- Whether PREEMPTION_STOP has something to do. -/
def State.stopMoves (s : State) (l : Launch) : Bool := decide (l.outcome = none) && (decide (s.toSave l.id ≠ []) || s.stopDone l)

/-- PREEMPTION_STOP (R355, R356): one stopped team, by the device's choice, or the end of the stop. -/
def execPreemptionStop (l : Nat) (s : State) : Host.Outcome State Fault Refusal :=
  match s.launch? l with
  | none => .next s
  | some x =>
    if !s.stopMoves x then .next s
    else match (s.toSave l)[s.pick 33554432 % (s.toSave l).length]? with
      | some t => .next (s.stopOne x t)
      | none => .next (s.launchSaved x)

/-! ## Restore (R136, R355, R453) -/

/-- The beats that write a saved range back, 64 bytes each, in ascending order. -/
def Launch.restoreBeats (l : Launch) (bytes : SMap Byte) : List Beat :=
  (List.range ((l.grant.2 - l.grant.1) / 64)).map fun i =>
    let off := l.grant.1 + 64 * i
    { id := i, team := 0, core := 0, ctx := l.ctx, op := l.id, off := off, data := BitVec.ofNat 512 (spadRead bytes off 64), enable := 0xFFFF,
      gran := none, key := none, entry := 0, bad := false, resends := 0 }

/-- Whether the teams that are to be restored can be placed on the cores as they are filled now; `fuel` bounds the descents. -/
def State.placesSaved (s : State) (l : Nat) : Nat → Bool
  | 0 => false
  | fuel + 1 => match s.qteams.find? fun q => q.launch == l && q.restore.isSome && q.at?.isNone with
    | none => s.canAdmit (s.qteams.filter fun q => q.launch == l && q.restore.isSome)
    | some q => s.descends q && (s.descend q).placesSaved l fuel

/-- The saved teams of a launch. -/
def State.savedOf (s : State) (l : Nat) : List SavedTeam := s.saved.filter fun x => x.team.launch == l

/-- A launch whose restore begins: its ranges are to be written back, its teams are queued. -/
def State.beginRestore (s : State) (l : Launch) : State :=
  let s := s.modLaunch l.id fun l =>
    { l with state := .restoring, batch := { l.batch with timer := l.batch.timer.map fun t => t + s.now } }
  let s := l.savedWins.foldl (fun s w => s.modTower w.1 fun y => { y with beats := y.beats ++ l.restoreBeats w.2 }) s
  let s := (s.savedOf l.id).foldl State.queueSaved s
  s.launchRuns l.id

/-- Whether some saved teams of a launch would find their places; a sleeping layer will be woken for them. -/
def State.wouldPlace (s : State) (l : Launch) (xs : List SavedTeam) : Bool :=
  let wake := fun y : Layer => { y with asleep := false }
  let s := { s.modLaunch l.id fun l => { l with state := .restoring } with layers := s.layers.map wake }
  (xs.foldl State.queueSaved s).placesSaved l.id (3 * xs.length + 1)

/-- Whether the distributor can admit the teams of a saved launch again: no other context's grant stands in the way on its towers, and
its teams, or of a launch that is not `concurrent` some of them, find their places, their parked entries having replayed. -/
def State.restorable (s : State) (l : Launch) : Bool :=
  let xs := s.savedOf l.id
  let mates := fun x : SavedTeam =>
    if x.team.clusterSize ≤ 1 then [x] else xs.filter fun y => y.team.cluster == x.team.cluster && y.team.clusterSize == x.team.clusterSize
  decide (l.outcome = none) && decide (l.state = .saved) && (l.savedWins.all fun w => s.windowFree w.1 l) &&
    (decide (xs = []) || (if l.cls = 0 then s.wouldPlace l xs else xs.any fun x => s.wouldPlace l (mates x)))

/-- Whether every save area of a launch passes the checks of R453. -/
def State.areasOk (s : State) (l : Launch) : Bool := (s.savedOf l.id).all fun x => (s.areaOf l x).1.isSome

/-- RESTORE (R355, R453). -/
def execRestore (l : Nat) (s : State) : Host.Outcome State Fault Refusal :=
  match s.launch? l with
  | none => .next s
  | some x =>
    if !s.restorable x then .next s
    else if s.areasOk x then .next (s.beginRestore x)
    else .next (s.restoreFails x)

end Sys2Proof.Machine
end

