-- ==== Sys2Proof/Machine/Firmware.lean ====
section
/-! DEFINITION. The firmware complex: package reset and boot (R32, R403), mailboxes and their commands (R330, R333, R354, R397 to
R401, R404 to R408), in-service changes (R138, R342, R455, R476), and the fatal package (R479). -/

namespace Sys2Proof.Machine

/-! ## Mailboxes (R398, R399) -/

/-- The mailbox of a firmware core. -/
def State.mailbox (s : State) (n : Nat) : Mailbox := s.pkg.mailboxes.getD n Mailbox.reset

/-- A mailbox with the request that its core works on: the latched one, or else the one that stands in it (R399). -/
def Mailbox.current (m : Mailbox) : Mailbox :=
  match m.latched with
  | some (r, args) => { m with request := r, args := args }
  | none => m

/-- The request that a firmware core works on. -/
def State.asking (s : State) (n : Nat) : Mailbox := (s.mailbox n).current

/-- CODE of a request. -/
def Mailbox.code (m : Mailbox) : Nat := m.request.toNat % 256

/-- Argument k, counted from 0. -/
def Mailbox.arg (m : Mailbox) (k : Nat) : Nat := (m.args.getD k 0).toNat

/-- Arguments k and k + 1 as one number, the low word first. -/
def Mailbox.long (m : Mailbox) (k : Nat) : Nat := m.arg k + 2 ^ 32 * m.arg (k + 1)

/-- Whether a firmware core works on a request, or can latch one: an UPDATE of core 7 goes on while core 7 is handed over. -/
def State.requested (s : State) (n : Nat) : Bool :=
  let latched := (s.mailbox n).latched.isSome
  (s.serves n || (decide (n = 7) && latched && ((s.pkg.fw.getD 7 FwCore.reset).handover).isSome)) &&
    ((s.mailbox n).request.getLsbD 31 || latched)

/-- Whether it is a given command. -/
def State.asked (s : State) (n code : Nat) : Bool := s.requested n && decide ((s.asking n).code = code)

/-- Changes a mailbox. -/
def State.modMailbox (s : State) (n : Nat) (g : Mailbox → Mailbox) : State :=
  s.modPkg fun p => { p with mailboxes := p.mailboxes.set n (g (p.mailboxes.getD n Mailbox.reset)) }

/-- The firmware latches the code and the arguments as it clears GO and DONE (R399). -/
def Mailbox.latch (m : Mailbox) : Mailbox :=
  { m with
    request := m.request &&& 0x7FFFFFFF, status := m.status &&& 0x7FFFFFFF, latched := some (m.request &&& 0x7FFFFFFF, m.args) }

/-- The status word of a request: STATUS, its TAG and DONE. -/
def Mailbox.statusWord (m : Mailbox) (status : Nat) : Word :=
  BitVec.ofNat 32 (status + bits m.request.toNat 15 8 * 2 ^ 8 + 2 ^ 31)

/-- The results of a latched request are written; its status word follows. -/
def Mailbox.give (m : Mailbox) (status : Nat) (results : List Nat) : Mailbox :=
  { m with results := results.map (BitVec.ofNat 32) ++ m.results.drop results.length, answer := some (m.current.statusWord status) }

/-- The status word is written last, with DONE (R399). -/
def Mailbox.finish (m : Mailbox) (w : Word) : Mailbox := { m with status := w, latched := none, answer := none }

/-- What a command comes to: its status and its results, or none while it goes on; and the state. -/
abbrev Served := Option (Nat × List Nat) × State

/-- A command that is done. -/
def done (s : State) : Served := (some (0, []), s)

/-- A command that is refused. -/
def refused (s : State) : Served := (some (2, []), s)

/-- A command that goes on. -/
def goesOn (s : State) : Served := (none, s)

/-- A latched request is carried out and its results are written; the former primary of a pair refuses it (R399, R406). -/
def State.carryOut (s : State) (n : Nat) (body : Mailbox → State → Served) : State :=
  match (if s.pkg.displaced then refused s else body (s.asking n) s) with
  | (some (status, results), s) => s.modMailbox n fun m => m.give status results
  | (none, s) => s

/-- One stage of a request (R399): it is latched, carried out, or its status word is written. -/
def State.serveMail (s : State) (n code : Nat) (body : Mailbox → State → Served) : State :=
  if !s.asked n code then s
  else match (s.mailbox n).latched, (s.mailbox n).answer with
    | none, _ => s.modMailbox n Mailbox.latch
    | some _, none => s.carryOut n body
    | some _, some w => s.modMailbox n fun m => m.finish w

/-- HOST_WINDOW_WRITE (R397, R399): the request areas of the mailboxes take a word; everything else only reads. -/
def execHostWindowWrite (off : Nat) (w : Word) (s : State) : Host.Outcome State Fault Refusal :=
  let n := (off - 0x10000) / 0x100
  let at_ := off % 0x100
  if off < 0x10000 ∨ 8 ≤ n ∨ 0x40 ≤ at_ ∨ at_ % 4 ≠ 0 then .next s
  else if at_ = 0 then .next (s.modMailbox n fun m => { m with request := w &&& 0x8000FFFF })
  else .next (s.modMailbox n fun m => { m with args := m.args.set (at_ / 4 - 1) w })

/-! ## Package reset and boot (R32, R403) -/

/-- The image of a firmware core. -/
def State.imageOf (s : State) (n : Nat) : List Byte := ((s.pkg.fw.getD n FwCore.reset).image).getD (Config.image n)

/-- The measurement register extended by an image (R403). -/
def extended (old : BitVec 256) (image : List Byte) : BitVec 256 :=
  Config.sha256 (toLe 32 old.toNat ++ toLe 32 (Config.sha256 image).toNat)

/-- Core 0 verifies the image of a core, and measures and starts it, or leaves it down. -/
def State.verifyCore (s : State) (n : Nat) : State :=
  let image := s.imageOf n
  let ok := Config.verifies n image
  let f : FwCore := { (s.pkg.fw.getD n FwCore.reset) with version := if ok then Config.version image else 0, down := !ok, lastBeat := s.now }
  s.modPkg fun p =>
    { p with fw := p.fw.set n f, measurement := if ok && decide (n ≠ 0) then extended p.measurement image else p.measurement }

/-- PACKAGE_RESET (R403): everything begins anew but for memory, the images of the firmware, and the core map, since a core that was
retired never holds work again (R12); the ROM writes the bases of the application cores (R397, R402) and verifies core 0, core 0 the
others. -/
def execPackageReset (s : State) : Host.Outcome State Fault Refusal :=
  let r : State := { State.reset with mem := s.mem, tick := s.tick, nextId := s.nextId, inbox := s.inbox, drawn := s.drawn }
  let r := r.modPkg fun p => { p with
    coreMap := s.pkg.coreMap, pool := s.pkg.pool, pkgNo := s.pkg.pkgNo, fw := s.pkg.fw.map fun f => { FwCore.reset with image := f.image },
    windowBase := BitVec.ofNat 64 (s.pick 25165832), apertureBase := BitVec.ofNat 64 (s.pick 25165833) }
  let r := r.verifyCore 0
  let r := if (r.pkg.fw.getD 0 FwCore.reset).down then r else [1, 2, 3, 4, 5, 6, 7].foldl State.verifyCore r
  if r.pkg.fw.any FwCore.down then .next (r.modPkg fun p => { p with boot := .failed, bootStatus := 2 })
  else .next (r.modPkg fun p => { p with boot := .coolant })

/-- An entry of the port table as core 5 publishes it: what the links and the wiring make it is free, within R363. -/
def State.trainPort (s : State) (n : Nat) : BitVec 64 :=
  let v := fun k => s.pick (20971520 + 8 * n + k)
  if v 0 % 2 = 0 then 0
  else
    let lanes := [8, 4, 2].getD (v 1 % 3) 8
    let peer := v 2 % 2
    BitVec.ofNat 64 (1 + lanes * 2 ^ 1 + peer * 2 ^ 5 + v 3 % 256 * 2 ^ 8 + v 4 % 256 * 2 ^ 16 + (v 5 % 2) * (1 - peer) * 2 ^ 24)

/-- COOLANT_FLOW (R32, R403): with flow the towers leave reset, and cores 6 and 5 publish their tables. -/
def execCoolantFlow (flows : Bool) (s : State) : Host.Outcome State Fault Refusal :=
  let s := s.modPkg fun p => { p with coolant := flows }
  if s.pkg.boot ≠ .coolant then .next s
  else if flows then
    let ports := (List.range 18).map s.trainPort
    .next (s.modPkg fun p => { p with boot := .up, bootStatus := 1, signature := mapSignature p.coreMap, ports := ports })
  else .next (s.modPkg fun p => { p with bootStatus := 3 })

/-! ## Core 0 and core 1: attestation, features, the pair (R404 to R406) -/

/-- The bytes that the signature of a report covers, in the order of R404; zeros fill up to the signature's 384 bytes (log 13). -/
def Report.bytes (r : Report) : List Byte :=
  let bs := (r.nonce.flatMap fun w => toLe 4 w.toNat) ++ toLe 32 r.measurement.toNat ++ (r.versions.flatMap fun w => toLe 4 w.toNat) ++
    toLe 8 r.signature.toNat ++ toLe 16 r.accepted.toNat ++ toLe 4 r.updates
  bs ++ List.replicate (640 - bs.length) 0

/-- ATTEST (R400, R404). -/
def State.attestFor (m : Mailbox) (s : State) : Served :=
  let p := s.pkg
  let r : Report :=
    { nonce := m.args.take 8, measurement := p.measurement, versions := p.fw.map FwCore.version, signature := p.signature,
      accepted := p.accepted, updates := p.updates, sig := 0 }
  let r := { r with sig := Config.signature r.bytes }
  (some (0, [1024, p.attests + 1]), s.modPkg fun p => { p with report := some r, attests := p.attests + 1 })

/-- ATTEST (R404). -/
def execAttest (s : State) : Host.Outcome State Fault Refusal := .next (s.serveMail 0 1 State.attestFor)

/-- ACCEPT (R405). -/
def State.acceptFor (m : Mailbox) (s : State) : Served :=
  let v := BitVec.ofNat 128 (m.long 0 + 2 ^ 64 * m.long 2)
  if s.pkg.acceptDone ∨ v &&& ~~~s.pkg.offered ≠ 0 then refused s
  else done (s.modPkg fun p => { p with accepted := v, acceptDone := true })

/-- ACCEPT (R405). -/
def execAccept (s : State) : Host.Outcome State Fault Refusal := .next (s.serveMail 1 1 State.acceptFor)

/-- PAIR (R406). -/
def State.pairFor (m : Mailbox) (s : State) : Served :=
  if 1 < m.arg 1 then refused s else done (s.modPkg fun p => { p with pair := some (m.arg 0, m.arg 1), pairBeat := s.now })

/-- PAIR (R406). -/
def execPair (s : State) : Host.Outcome State Fault Refusal := .next (s.serveMail 1 3 State.pairFor)

/-! ## Core 2: queues (R330, R333, R354, R400) -/

/-- The queue of a block that has been read, or none when R330 refuses it. -/
def parseQcb (id qcb ctx v : Nat) : Option UQueue :=
  let log2n := bits v 68 64
  let zero := decide (bits v 63 57 = 0) && decide (bits v 95 69 = 0) && decide (bits v 175 175 = 0) && decide (bits v 191 184 = 0) &&
    decide (bits v 511 377 = 0)
  if !zero ∨ log2n < 4 ∨ 20 < log2n ∨ bits v 56 0 % 4096 ≠ 0 ∨ bits v 376 320 % 8 ≠ 0 then none
  else some
    { id := id, qcb := qcb, ctx := ctx, rbase := bits v 56 0, log2n := log2n, rdptr := BitVec.ofNat 32 (bits v 127 96),
      wrptr := BitVec.ofNat 32 (bits v 159 128), prio := bits v 162 160, eprio := bits v 162 160, state := .unmapped, slot := 0,
      part := bits v 183 176, lsig := bits v 255 192, psince := bits v 319 256, dbell := bits v 376 320,
      bell := none, rung := false, idleSince := none, watching := false, saving := false, stoppedBy := 0 }

/-- A registered queue by its block and context. -/
def State.registered (s : State) (qcb ctx : Nat) : Option UQueue := s.queues.find? fun q => q.qcb == qcb && q.ctx == ctx

/-- REGISTER (R330). -/
def State.registerFor (m : Mailbox) (s : State) : Served :=
  let qcb := m.long 0
  let ctx := m.long 2
  if qcb % 64 ≠ 0 ∨ (s.registered qcb ctx).isSome ∨ 2 ^ 46 ≤ ctx ∨ !s.inPool ctx then refused s
  else match s.virtRead ctx qcb 64 with
    | (none, s) => refused s
    | (some v, s) =>
      let (id, s) := s.fresh
      match parseQcb id qcb ctx v with
      | none => refused s
      | some q => done ({ s with queues := s.queues ++ [{ q with bell := s.bellOf q }] }.noteIdle)

/-- REGISTER (R330). -/
def execRegister (s : State) : Host.Outcome State Fault Refusal := .next (s.serveMail 2 1 State.registerFor)

/-- UNREGISTER (R400): a Mapped queue first saves its block; its slot is then free. -/
def State.unregisterFor (m : Mailbox) (s : State) : Served :=
  match s.registered (m.long 0) (m.long 2) with
  | none => refused s
  | some q =>
    let s := if q.state = .mapped then s.saveQcb { q with state := .unmapped } else s
    let s := { s with queues := s.queues.filter fun x => x.id != q.id, watches := s.watches.filter fun w => w.queue != some q.id }
    done (s.fillSlots s.queues.length)

/-- UNREGISTER (R400). -/
def execUnregister (s : State) : Host.Outcome State Fault Refusal := .next (s.serveMail 2 2 State.unregisterFor)

/-- PLIMIT (R333): a higher limit may let a Pending queue in. -/
def State.plimitFor (m : Mailbox) (s : State) : Served :=
  if 255 < m.arg 0 ∨ m.arg 1 < 1 ∨ 64 < m.arg 1 then refused s
  else
    let s := s.modPkg fun p => { p with plimits := SMap.set 0 p.plimits (m.arg 0) (m.arg 1) }
    done (s.fillSlots s.queues.length)

/-- PLIMIT (R333). -/
def execPlimit (s : State) : Host.Outcome State Fault Refusal := .next (s.serveMail 2 3 State.plimitFor)

/-- PREEMPT (R354, R452). -/
def State.preemptFor (m : Mailbox) (s : State) : Served :=
  match s.launches.find? fun l => l.recVa == m.long 0 && l.runs with
  | none => refused s
  | some l => match s.stopWhole l with
    | some s => done s
    | none => refused s

/-- PREEMPT (R354). -/
def execPreempt (s : State) : Host.Outcome State Fault Refusal := .next (s.serveMail 2 4 State.preemptFor)

/-! ## Core 3: translations and the aperture (R401, R402) -/

/-- INVAL (R401, R434): it completes once no access that may have used an old translation is on its way. -/
def State.invalFor (m : Mailbox) (s : State) : Served :=
  if s.quiet (m.long 0) then done (s.invalidate ⟨m.long 0, m.long 2, m.long 4⟩).findBells else goesOn s

/-- INVAL (R401). -/
def execInval (s : State) : Host.Outcome State Fault Refusal := .next (s.serveMail 3 1 State.invalFor)

/-- Whether a stage of a mailbox's request is due: an INVAL waits for the accesses that may have used an old translation. -/
def State.mailDue (s : State) (n : Nat) : Bool :=
  s.requested n && !(decide (n = 3) && decide ((s.asking 3).code = 1) && (s.mailbox 3).latched.isSome && (s.mailbox 3).answer.isNone &&
    !s.pkg.displaced && !s.quiet ((s.asking 3).long 0))

/-- APERTURE (R400, R402): pages onto a range of a context; context 0 unmaps. -/
def State.apertureFor (m : Mailbox) (s : State) : Served :=
  let page := m.arg 0
  let n := m.arg 5
  if 2 ^ 20 < page + n then refused s
  else
    let rest := s.pkg.aperture.filter fun p => decide (p.1 < page) || decide (page + n ≤ p.1)
    let new := if m.long 1 = 0 then [] else (List.range n).map fun i => (page + i, m.long 1, m.long 3 + 65536 * i)
    done (s.modPkg fun p => { p with aperture := rest ++ new })

/-- APERTURE (R402). -/
def execAperture (s : State) : Host.Outcome State Fault Refusal := .next (s.serveMail 3 2 State.apertureFor)

/-! ## Core 7: live update and retirement (R407, R408) -/

/-- The new image that an UPDATE names: its bytes from a physical address (log 86). -/
def State.newImage (s : State) (m : Mailbox) : List Byte × State :=
  let (v, s) := s.physRead (m.arg 1) (m.arg 2)
  (toLe (m.arg 2) v, s)

/-- Changes a firmware core. -/
def State.modFw (s : State) (n : Nat) (g : FwCore → FwCore) : State := s.modPkg fun p => { p with fw := p.fw.set n (g (p.fw.getD n FwCore.reset)) }

/-- UPDATE (R407), by its stages: core 0 verifies and measures the new image, and the old one hands over; the new image reports ready,
or fails before it does, and the old one resumes from its record. Which of the two comes is free. -/
def State.updateFor (m : Mailbox) (s : State) : Served :=
  let n := m.arg 0
  if n < 1 ∨ 7 < n then refused s
  else match (s.pkg.fw.getD n FwCore.reset).handover with
    | none =>
      let (image, s) := s.newImage m
      if !Config.verifies n image then refused s
      else goesOn ((s.modPkg fun p => { p with measurement := extended p.measurement image }).modFw n fun f => { f with handover := some image })
    | some image =>
      let s := s.modFw n fun f => { f with handover := none }
      if s.pick 25165824 % 2 = 0 then refused s
      else done ((s.modFw n fun f => { f with version := Config.version image, image := some image }).modPkg fun p => { p with updates := p.updates + 1 })

/-- UPDATE (R407). -/
def execUpdate (s : State) : Host.Outcome State Fault Refusal := .next (s.serveMail 7 1 State.updateFor)

/-- Puts an in-service change into the line of its tower: kind (0 core, 1 slice, 2 row, 3 link, and 5 once its UP is clear, 4 routing
tables), number, and how it came (a core: 1 forced; a slice: its reason, 2 for a command; a link: its lanes). -/
def State.addChange (s : State) (tower : Nat) (c : Nat × Nat × Nat) : State :=
  s.modTower tower fun y => { y with waitingChanges := y.waitingChanges ++ [c] }

/-- The slices of a tower that serve some hash value. -/
def Tower.slices (y : Tower) : List Nat := ((List.range 64).map y.sliceOf).eraseDups

/-- RETIRE (R408): an active core of the package, or a slice in use that is not the last. -/
def State.retireFor (m : Mailbox) (s : State) : Served :=
  let at_ := m.arg 1
  let n := m.arg 2
  if m.arg 0 = 0 ∧ at_ < 24 ∧ n < 96 ∧ s.pkg.isActive at_ n then done (s.addChange (at_ / 6) (0, 96 * at_ + n, 0))
  else if m.arg 0 = 1 ∧ at_ < 4 ∧ (s.tower at_).slices.contains n ∧ 2 ≤ (s.tower at_).slices.length then done (s.addChange at_ (1, n, 2))
  else refused s

/-- RETIRE (R408). -/
def execRetire (s : State) : Host.Outcome State Fault Refusal := .next (s.serveMail 7 2 State.retireFor)

/-- The commands that have steps of their own, by core. -/
def knownCodes : Nat → List Nat
  | 0 => [1]
  | 1 => [1, 3]
  | 2 => [1, 2, 3, 4]
  | 3 => [1, 2]
  | 7 => [1, 2]
  | _ => []

/-- ELECT, or a code that is no command (R398, R400). -/
def State.otherFor (n : Nat) (m : Mailbox) (s : State) : Served :=
  if n = 1 ∧ m.code = 2 then
    if m.arg 0 = 1 ∨ m.arg 0 = 2 then done (s.modPkg fun p => { p with elected := (p.elected ++ [m.arg 0]).eraseDups }) else refused s
  else (some (1, []), s)

/-- MAILBOX_UNKNOWN_COMMAND (R398); ELECT, which has no step of its own, is served here. -/
def execMailboxUnknownCommand (core : Nat) (s : State) : Host.Outcome State Fault Refusal :=
  let code := (s.asking core).code
  if (knownCodes core).contains code then .next s else .next (s.serveMail core code (State.otherFor core))

/-! ## The fatal package (R479) -/

/-- The package becomes fatal: every launch ends, and no command is consumed any more. -/
def State.goFatal (s : State) (code : Nat) : State :=
  if s.pkg.fatal.isSome then s
  else (s.launches.foldl (fun s l => s.endLaunch l.id 2 code) s).modPkg fun p => { p with fatal := some (BitVec.ofNat 32 code) }

/-- A line enters the lost-line table of its home slice, or finds it full (R465). -/
def State.loseLine (s : State) (bank line : Nat) : State :=
  if s.pkg.lostLines.contains (bank, line) then s
  else if 64 ≤ (s.pkg.lostLines.filter fun p => p.1 == bank).length then s.goFatal 0xFFFF0005
  else s.modPkg fun p => { p with lostLines := p.lostLines ++ [(bank, line)] }

/-! ## Retiring a core (R12, R13, R342, R354, R408, R455) -/

/-- The launches with resident teams on a core. -/
def State.launchesOn (s : State) (core : Nat) : List Launch := s.launches.filter fun l => s.teams.any fun t => t.core == core && t.launch == l.id

/-- Whether a retirement must wait for a launch whose variant the signature chose and whose work the core ran (R342). -/
def State.defers (s : State) (core : Nat) : Bool := (s.core core).awaits.any fun l => (s.launch? l).isSome

/-- Takes the work off a core: forced, the launches of signature-chosen variants end; of the others, a weakly parallel one loses the
teams there with their clusters, any other stops whole. -/
def State.stopCore (s : State) (core : Nat) : State :=
  (s.launchesOn core).foldl (fun s l =>
    let mine := (s.teams.filter fun t => t.core == core && t.launch == l.id && !t.stopped).flatMap s.clusterTeams
    if l.bySig then s.endLaunch l.id 5 0
    else if !l.runs ∨ mine = [] then s
    else s.forceStop l fun s l => if l.cls = 2 then s.stopTeams l mine.eraseDups else s.stopWhole l) s

/-- A core named in a retirement: its unstarted teams go back to their die's queue. -/
def State.nameRetiring (s : State) (core : Nat) : State :=
  let back := fun q : QTeam => match q.level with
    | .core c => if c = core then { q with level := .die (dieOf core) } else q
    | _ => q
  let awaits := ((s.launchesOn core).filter Launch.bySig).map Launch.id
  { s.modCore core fun c => { c with retiring := true, awaits := awaits } with qteams := s.qteams.map back }

/-- The lowest spare of a die. -/
def CoreMapEntry.lowestSpare (e : CoreMapEntry) : Option Nat := (List.range 96).find? fun n => e.spare.getLsbD n

/-- The entry of a die with an active core retired and a spare promoted. -/
def CoreMapEntry.retired (e : CoreMapEntry) (n : Nat) : CoreMapEntry :=
  let bit := fun k => BitVec.ofNat 96 (2 ^ k)
  let e := { e with active := e.active &&& ~~~bit n }
  match e.lowestSpare with
  | some k => { active := e.active ||| bit k, spare := e.spare &&& ~~~bit k }
  | none => e

/-- A core that holds no work any more is retired: a spare takes its place, the map and the signature are written anew. -/
def State.finishCore (s : State) (core : Nat) : State :=
  let die := dieOf core
  let e := s.pkg.coreMap.getD die CoreMapEntry.boot
  let s := (s.writeBackAll core).modCore core fun c => { Core.reset core with noiseOn := c.noiseOn, errors := c.errors }
  let map := s.pkg.coreMap.set die (e.retired (core % 96))
  let s := s.modPkg fun p => { p with coreMap := map, signature := mapSignature map }
  s.errorRecord 16 0 4 (core % 96) die (towerOf core) [(0x18, 4, core % 96), (0x1C, 4, e.lowestSpare.getD 0xFF)]

/-! ## Retiring a slice (R138, R476) -/

/-- A slice spills its exact sums and drops its staging buffer, and its watches wake; its hash values pass to its owner, with its tags
and its lost lines. The requests that it held are served by the owner, in their order. -/
def State.beginSlice (s : State) (tower x y reason : Nat) : State :=
  let bank := fun n => s.pkg.pkgNo * 256 + tower * 64 + n
  let s := s.spillSlice (bank x) (bank y)
  let s := s.modTower tower fun w =>
    let hashes := (List.range 64).filter fun h => w.sliceOf h == x
    { w with sliceMap := hashes.foldl (fun m h => SMap.set 0 m h (y + 1)) w.sliceMap, retire := some ⟨x, y, reason, hashes⟩ }
  let s := { s with staged := s.staged.filter fun g => g.bank != bank x }
  let s := s.wakeWhere fun w => w.bank == bank x
  let move := fun t : PromoTag => if t.bank = bank x then { t with bank := bank y } else t
  let s := { s with tags := s.tags.map move }
  let lost := s.pkg.lostLines.filter fun p => p.1 == bank x
  let s := s.modPkg fun p => { p with lostLines := p.lostLines.filter fun p => p.1 != bank x }
  lost.foldl (fun s p => s.loseLine (bank y) p.2) s

/-- Whether no request to the retired slice is on its way. -/
def State.sliceDrained (s : State) (tower : Nat) : Bool :=
  match (s.tower tower).retire with
  | some r => s.reqs.all fun q => decide (q.bank ≠ s.pkg.pkgNo * 256 + tower * 64 + r.slice) || q.state.isDone
  | none => false

/-- The retired slice of a tower is removed, and the change is complete. -/
def State.removeSlice (s : State) (tower : Nat) : State :=
  match (s.tower tower).retire with
  | some r =>
    let reason := if r.reason < 2 then r.reason else s.pick 29360128 % 2
    let s := s.errorRecord 14 0 4 127 31 tower [(0x18, 4, r.slice), (0x1C, 4, r.owner), (0x20, 4, reason)]
    s.modTower tower fun y => { y with retire := none, change := none }
  | none => s

/-- SLICE_REMAP_DRAINED (R138): of the first tower whose remap has drained. -/
def execSliceRemapDrained (s : State) : Host.Outcome State Fault Refusal :=
  match (List.range 4).find? s.sliceDrained with
  | some tower => .next (s.removeSlice tower)
  | none => .next s

/-! ## One change at a time (R408) -/

/-- Whether no ordered request to another package is on its way through a port, or, for 18, through any (R362). -/
def State.flowsDrained (s : State) (port : Nat) : Bool :=
  s.reqs.all fun r => !(decide (r.state = .sent) && decide (pkgOfKey r.line ≠ s.pkg.pkgNo) &&
    (decide (port = 18) || decide (s.routePort (pkgOfKey r.line) (flowOf r.pa) = port)))

/-- An entry of the port table. -/
def State.port (s : State) (n : Nat) : BitVec 64 := s.pkg.ports.getD n 0

/-- Rewrites UP and LANES of an entry (R363). -/
def State.setPort (s : State) (n : Nat) (up : Bool) (lanes : Nat) : State :=
  let v := (s.port n).toNat / 2 ^ 5 * 2 ^ 5 + b2n up + lanes * 2
  s.modPkg fun p => { p with ports := p.ports.set n (BitVec.ofNat 64 v) }

/-- Whether a tower's change can begin or go on: the next waiting one when none is in progress; a core's, unless it must wait; a link's
and the routing tables' once the flows have drained. -/
def State.changeMoves (s : State) (tower : Nat) : Bool :=
  let y := s.tower tower
  s.serves 7 && (match y.change with
    | none => decide (y.waitingChanges ≠ [])
    | some (0, core, how) =>
      let on := s.launchesOn core
      let here := s.teams.filter fun t => t.core == core
      (decide (here = []) && (decide (how = 1) || !s.defers core)) ||
        (if how = 1 then on.any fun l => decide (l.outcome = none) && (l.bySig || (l.runs && here.any fun t => t.launch == l.id && !t.stopped))
         else !s.defers core && on.any fun l => l.runs && here.any fun t => t.launch == l.id && !t.stopped)
    | some (3, port, _) => s.flowsDrained port
    | some (4, _) => s.flowsDrained 18
    | some (5, _) => true
    | some _ => false)

/-- A change begins. -/
def State.beginChange (s : State) (tower : Nat) (c : Nat × Nat × Nat) (rest : List (Nat × Nat × Nat)) : State :=
  let s := s.modTower tower fun y => { y with change := some c, waitingChanges := rest }
  let idle := fun s : State => s.modTower tower fun y => { y with change := none }
  match c with
  | (0, core, _) => if s.pkg.isActive (dieOf core) (core % 96) then s.nameRetiring core else idle s
  | (1, x, reason) =>
    let ys := ((s.tower tower).slices).filter fun y => y != x
    match (s.tower tower).slices.contains x, ys[s.pick 29360129 % ys.length]? with
    | true, some y => s.beginSlice tower x y reason
    | _, _ => idle s
  | (3, _, _) | (4, _, _) => s
  | _ => idle s

/-- A core's retirement goes on: its work is taken off it, and once it has none, and no launch defers it, it is retired. -/
def State.goOnCore (s : State) (tower core how : Nat) : State :=
  if how ≠ 1 ∧ s.defers core then s
  else if s.teams.any fun t => t.core == core then s.stopCore core
  else (s.finishCore core).modTower tower fun y => { y with change := none }

/-- The change of a tower moves: the next one begins, or the one in progress goes on. -/
def State.moveChange (s : State) (tower : Nat) : State :=
  let idle := fun s : State => s.modTower tower fun y => { y with change := none }
  match (s.tower tower).change, (s.tower tower).waitingChanges with
  | some (3, port, lanes), _ =>
    -- UP is clear while the link retrains
    if s.flowsDrained port then (s.setPort port false 0).modTower tower fun y => { y with change := some (5, port, lanes) } else s
  | some (5, port, lanes), _ => idle (s.setPort port true lanes)
  | some (4, _), _ => if s.flowsDrained 18 then idle (s.modPkg fun p => { p with routes := p.routes + 1 }) else s
  | some (_, core, how), _ => s.goOnCore tower core how
  | none, c :: rest => s.beginChange tower c rest
  | none, [] => s

/-- IN_SERVICE_CHANGE_START (R408): a waiting change starts, or one in progress goes on, on the first tower where one can. A row
replacement holds and serves the requests of its lines in one step, so that nothing else changes. -/
def execInServiceChangeStart (s : State) : Host.Outcome State Fault Refusal :=
  match (List.range 4).find? s.changeMoves with
  | some tower => .next (s.moveChange tower)
  | none => .next s

end Sys2Proof.Machine
end

