-- ==== Sys2Proof/Machine/HostSide.lean ====
section
/-! DEFINITION. What the host window holds (R397), and accesses through the aperture by the external host and the application
cores (R402). -/

namespace Sys2Proof.Machine

/-! ## The host window (R15, R363, R397, R398, R404) -/

/-- An entry of the core map as it lies in the window (R15). -/
def CoreMapEntry.word (e : CoreMapEntry) : Nat :=
  let ones := fun v : BitVec 96 => ((List.range 96).filter fun n => v.getLsbD n).length
  e.active.toNat + ones e.active * 2 ^ 96 + e.spare.toNat * 2 ^ 128 + ones e.spare * 2 ^ 224 + b2n (decide (ones e.active < 90)) * 2 ^ 232

/-- The bytes of a mailbox (R398). -/
def Mailbox.bytes (m : Mailbox) : List Byte := (m.request :: m.args ++ m.status :: m.results).flatMap fun w => toLe 4 w.toNat

/-- The regions of the window that hold anything: the offset and the bytes of each (R397). -/
def State.windowRegions (s : State) : List (Nat × List Byte) :=
  let p := s.pkg
  -- core 6 publishes the map with the signature (R403)
  [(0, if p.boot = .up then p.coreMap.flatMap fun e => toLe 32 e.word else []), (0x400, p.ports.flatMap fun v => toLe 8 v.toNat), (0x500, toLe 8 p.signature.toNat),
    (0x510, toLe 16 p.offered.toNat), (0x520, toLe 16 p.accepted.toNat), (0x530, toLe 4 p.bootStatus.toNat),
    (0x600, p.fw.flatMap fun f => toLe 4 f.version.toNat),
    (0x800, match p.report with
      | some r => r.bytes ++ toLe 384 r.sig.toNat
      | none => [])] ++
    ((List.range 8).zip p.mailboxes).map fun m => (0x10000 + 0x100 * m.1, m.2.bytes)

/-- A byte of the window; an offset that no region covers reads as zero (R397). -/
def State.windowByte (s : State) (off : Nat) : Byte :=
  (s.windowRegions.findSome? fun r => if r.1 ≤ off then r.2[off - r.1]? else none).getD 0

/-! ## Places behind the aperture -/

/-- The context and the virtual address behind a byte of the aperture; none on an unmapped page. -/
def State.behind (s : State) (off : Nat) : Option (Nat × Nat) :=
  (s.pkg.aperture.find? fun p => p.1 == off / 65536).map fun p => (p.2.1, p.2.2 + off % 65536)

/-- What a byte of the aperture leads to: nothing mapped, a walk result, or a place. -/
inductive Behind where
  | unmapped
  | failed
  | place (p : Place)
deriving DecidableEq, Repr

/-- The place behind a byte of the aperture for an access. -/
def State.reach (s : State) (off : Nat) (perm : Perm) : Behind :=
  match s.behind off with
  | none => .unmapped
  | some (ctx, va) => match (s.translateNoCache ctx va perm).1 with
    | .ok p => .place p
    | _ => .failed

/-- Bytes of a write with the keys they go to; those that reach no place are dropped. -/
def State.writePlaces (s : State) (off : Nat) (data : List Byte) : List (Nat × Byte) :=
  ((List.range data.length).zip data).filterMap fun p => match s.reach (off + p.1) .write with
    | .place q => some (q.key, p.2)
    | _ => none

/-- Whether a write covers a line. -/
def coversWhole (ws : List (Nat × Byte)) (line : Nat) : Bool := (List.range 128).all fun i => ws.any fun w => w.1 == line + i

/-- A write through the aperture performs at its home slices: a lost line only when it is covered whole (R465). -/
def State.apertureWrite (s : State) (off : Nat) (data : List Byte) : State :=
  let ws := s.writePlaces off data
  let free := fun key : Nat => !s.lostLine (lineOf key) || coversWhole ws (lineOf key)
  let ok := ws.filter fun w => free w.1
  let s := s.modPkg fun p => { p with lostLines := p.lostLines.filter fun q => !(ok.any fun w => lineOf w.1 == q.2) }
  ok.foldl (fun s w => s.homeWrite w.1 1 w.2.toNat) s

/-- A read through the aperture: all ones where nothing is mapped; where the walk fails or the line is lost the data is free. -/
def State.apertureRead (s : State) (off n : Nat) : List Byte × State :=
  (List.range n).foldl (fun (r : List Byte × State) i => match r.2.reach (off + i) .read with
    | .unmapped => (r.1 ++ [255], r.2)
    | .failed => (r.1 ++ [BitVec.ofNat 8 (r.2.pick (50331648 + i))], r.2)
    | .place p =>
      if r.2.lostLine (lineOf p.key) then (r.1 ++ [BitVec.ofNat 8 (r.2.pick (50331648 + i))], r.2)
      else
        let (b, s) := r.2.homeRead p.key 1
        (r.1 ++ [BitVec.ofNat 8 b], s)) ([], s)

/-- The data that a read has returned. -/
def State.giveHost (r : List Byte × State) : State := r.2.modPkg fun p => { p with hostData := r.1 }

/-! ## The accesses (R402) -/

/-- Posted writes with Relaxed Ordering perform in an order that is free; `fuel` bounds their number. -/
def State.applyPosted : (fuel : Nat) → State → State
  | 0, s => s
  | n + 1, s => match s.pkg.posted[s.pick (2 ^ 206 + n) % s.pkg.posted.length]? with
    | none => s
    | some w => State.applyPosted n ((s.modPkg fun p => { p with posted := p.posted.erase w }).apertureWrite w.1 w.2)

/-- Every posted write that has arrived performs. -/
def State.performPosted (s : State) : State := State.applyPosted s.pkg.posted.length s

/-- PCIE_POSTED_WRITE (R402): with Relaxed Ordering clear it performs after every write that arrived before it; with it set, before the
next cycle. -/
def execPciePostedWrite (off : Nat) (data : List Byte) (relaxed : Bool) (s : State) : Host.Outcome State Fault Refusal :=
  if relaxed then .next (s.modPkg fun p => { p with posted := p.posted ++ [(off, data)] })
  else .next (s.performPosted.apertureWrite off data)

/-- PCIE_READ (R402): the data includes every write that arrived before. -/
def execPcieRead (off len : Nat) (s : State) : Host.Outcome State Fault Refusal :=
  .next (State.giveHost (s.performPosted.apertureRead off len))

/-- An acquire by an application core reaches a line: the core that its tag names is promoted (R153). -/
def State.hostAcquire (s : State) (off : Nat) : State :=
  match s.reach off .read with
  | .place p => s.serveTag (lineOf p.key) 2304
  | _ => s

/-- A load by an application core reaches a line: it may have read from the release that its tag stands for (R152). -/
def State.hostHears (s : State) (off : Nat) : State :=
  match s.reach off .read with
  | .place p => match s.tags.find? fun t => t.line == lineOf p.key with
    | some t => s.modPkg fun k => { k with hostHeard := if k.hostHeard.contains t.core then k.hostHeard else t.core :: k.hostHeard }
    | none => s
  | _ => s

/-- A fence that is an acquire at rack scope: the cores that earlier loads have heard of are promoted (R152, R402). -/
def State.hostFence (s : State) : State := (s.pkg.hostHeard.foldl State.promote s).modPkg fun p => { p with hostHeard := [] }

/-- The value that an AMO writes over an old one of n bits. -/
def amoValue (op : AmoOp) (n old v : Nat) : Nat :=
  let v := v % 2 ^ n
  match op with
  | .swap => v
  | .add => (old + v) % 2 ^ n
  | .xor => old ^^^ v
  | .and => old &&& v
  | .or => old ||| v
  | .min => if signed n v < signed n old then v else old
  | .max => if signed n old < signed n v then v else old
  | .minu => min old v
  | .maxu => max old v

/-- An AMO: the old value is returned, the new one is written where atomics are permitted. -/
def State.hostAmo (s : State) (op : AmoOp) (off len : Nat) (data : BitVec 64) (aq : Bool) : State :=
  let s := if aq then s.hostAcquire off else s
  let (old, s) := s.apertureRead off len
  let s := State.giveHost (old, s)
  match s.reach off .atomic with
  | .place _ => s.apertureWrite off (toLe len (amoValue op (8 * len) (leN old) data.toNat))
  | _ => s

/-- APP_CORE_ACCESS (R402): each access performs as it comes, so that a fence finds every earlier store performed. -/
def execAppCoreAccess (a : AppAccess) (s : State) : Host.Outcome State Fault Refusal :=
  match a with
  | .load off len => .next (State.giveHost ((s.hostHears off).apertureRead off len))
  | .store off data => .next (s.apertureWrite off data)
  | .amo op off len data aq _rl => .next (s.hostAmo op off len data aq)
  | .fence pr _ sr sw => if pr && sr && sw then .next s.hostFence else .next s

end Sys2Proof.Machine
end

