-- ==== Sys2Proof/Machine/Errors.lean ====
section
/-! DEFINITION. Errors of storage, links, channels and firmware (R459 to R483), and the temperature of a tower (R30, R31). -/

namespace Sys2Proof.Machine

/-! ## Temperature (R30, R31) -/

/-- THERMAL_THROTTLE (R30). -/
def execThermalThrottle (tower : Nat) (s : State) : Host.Outcome State Fault Refusal :=
  .next (s.modTower tower fun y => { y with idle := true })

/-- THERMAL_STOP (R31): the tower issues nothing, its work is pre-empted, and a record is sent. -/
def execThermalStop (tower : Nat) (temp : BitVec 32) (s : State) : Host.Outcome State Fault Refusal :=
  let s := (s.modTower tower fun y => { y with stopped := true }).stopTower tower
  .next (s.errorRecord 8 2 4 127 31 tower [(0x18, 4, temp.toNat)])

/-- THERMAL_THROTTLE_END (R30): idle cycles end; a tower that had stopped is cool too and issues again. -/
def execThermalThrottleEnd (tower : Nat) (s : State) : Host.Outcome State Fault Refusal :=
  .next (s.modTower tower fun y => { y with idle := false, stopped := false })

/-! ## Corrected errors (R460 to R462) -/

/-- A counter of core 4: what it counts (1 errors within a scrub period, 2 errors not yet recorded, 3 the cycle of the last record, plus
one, 4 errors of a memory row), and the structure. -/
def errKey (what code place : Nat) : Nat := what * 2 ^ 80 + code * 2 ^ 64 + place

/-- A counter's value. -/
def State.errCount (s : State) (key : Nat) : Nat := SMap.get 0 s.pkg.errCounts key

/-- Sets a counter. -/
def State.setErr (s : State) (key n : Nat) : State := s.modPkg fun p => { p with errCounts := SMap.set 0 p.errCounts key n }

/-- The scrub period. -/
def State.period (s : State) : Nat := s.now / 2 ^ 34

/-- Counts an event within the scrub period, and gives the count. -/
def State.countIn (s : State) (what code place : Nat) : Nat × State :=
  let key := errKey what code place + s.period * 2 ^ 96
  (s.errCount key + 1, s.setErr key (s.errCount key + 1))

/-- The core that a structure of codes 1 to 7 lies in. -/
def State.coreOfUnit (s : State) (u : StorageUnit) : Option Nat :=
  if u.code = 7 then some u.place
  else if u.code = 6 ∧ 2 ^ 32 ≤ u.place then some (u.place % 2 ^ 32)
  else if 1 ≤ u.code ∧ u.code ≤ 6 then (s.team? u.place).map Team.core
  else none

/-- The home slice of a line of an L1 or of codes 9 to 12, as a bank. -/
def unitBank (u : StorageUnit) : Nat := if u.code = 6 then u.place / 2 ^ 32 - 1 else u.place % 2 ^ 16

/-- CORE, DIE and TWR of a record about a unit. -/
def State.whereIs (s : State) (u : StorageUnit) : Nat × Nat × Nat :=
  match s.coreOfUnit u with
  | some c => (c % 96, dieOf c, towerOf c)
  | none =>
    if u.code = 8 then (if u.place < 24 then (127, u.place, u.place / 6) else (127, 31, u.place - 24))
    else (127, 31, unitBank u / 64 % 4)

/-- Core 4 sends the count of a structure, at most once in 2^24 cycles (R461). -/
def State.noteCorrected (s : State) (u : StorageUnit) : State :=
  let pend := errKey 2 u.code u.place
  let last := errKey 3 u.code u.place
  let n := s.errCount pend + 1
  if s.errCount last ≠ 0 ∧ s.now < s.errCount last - 1 + 2 ^ 24 then s.setErr pend n
  else
    let (core, die, twr) := s.whereIs u
    ((s.errorRecord 9 0 4 core die twr [(0x18, 4, u.code), (0x1C, 4, n), (0x20, 8, u.unit)]).setErr pend 0).setErr last (s.now + 1)

/-- The thresholds of R462 for corrected errors: 256 in one slice, 4 in one row. -/
def State.thresholds (s : State) (u : StorageUnit) : State :=
  if u.code = 9 then
    let (n, s) := s.countIn 1 9 u.place
    if n = 256 then s.addChange (unitBank u / 64 % 4) (1, unitBank u % 64, 0) else s
  else if u.code = 12 then
    let (n, s) := s.countIn 4 12 (u.place / 2 ^ 16)
    if n = 4 then s.addChange (unitBank u / 64 % 4) (2, u.place / 2 ^ 16, 0) else s
  else s

/-- A corrected error: no value changes. -/
def State.corrected (s : State) (u : StorageUnit) : State := (s.noteCorrected u).thresholds u

/-- CORRECTED_ERROR (R460, R461). -/
def execCorrectedError (u : StorageUnit) (s : State) : Host.Outcome State Fault Refusal := .next (s.corrected u)

/-! ## Uncorrectable errors (R463 to R465) -/

/-- A unit that stays uncorrectable until it is written whole (R464). -/
def State.markBad (s : State) (u : StorageUnit) : State :=
  match u.code with
  | 7 => s.modCore u.place fun c => { c with bad := (c.bad ++ [u.unit]).eraseDups }
  | 8 =>
    if u.place < 24 then s.modLayer u.place fun y => { y with bad := (y.bad ++ [u.unit]).eraseDups }
    else s.modTower (u.place - 24) fun y => { y with bad := (y.bad ++ [u.unit]).eraseDups }
  | n => s.modTeam u.place fun t => { t with bad := (t.bad ++ [(n, u.unit)]).eraseDups }

/-- A line of an L1 goes: its dirty bytes were the only copy (R465). -/
def State.loseL1 (s : State) (u : StorageUnit) (core : Nat) : State :=
  match (s.core core).l1Line? (lineOf u.unit) with
  | none => s
  | some x =>
    let s := s.dropLine core x.line
    if x.dirty = 0 then s.corrected u
    else s.loseLine (unitBank u) x.line

/-- What an uncorrectable unit leaves behind. -/
def State.strike (s : State) (u : StorageUnit) : State :=
  if u.code = 6 ∧ 2 ^ 32 ≤ u.place then s.loseL1 u (u.place % 2 ^ 32)
  else if u.code ≤ 8 then s.markBad u
  else if u.code ≤ 12 then s.loseLine (unitBank u) (lineOf u.unit)
  else s

/-- What the error starts: the second one in codes 1 to 7 of a core retires the core by force, one in the exact-sum state its slice
(R462). -/
def State.strikeCore (s : State) (u : StorageUnit) : State :=
  match s.coreOfUnit u with
  | some c =>
    let s := s.modCore c fun x => { x with errors := x.errors + 1 }
    if (s.core c).errors = 2 then s.addChange (towerOf c) (0, c, 1) else s
  | none => if u.code = 10 then s.addChange (unitBank u / 64 % 4) (1, unitBank u % 64, 1) else s

/-- The access of a fibre that a lost line stops. -/
def State.opOnLine (s : State) (fid line : Nat) : Option MemOp :=
  s.ops.find? fun o => o.fid == fid && s.reqs.any fun r => r.op == o.id && r.line == line && decide (r.state ≠ .done)

/-- The consumer takes `dataerr`: an access under way performs nothing, a register source stops the fibre at its instruction (R463). -/
def State.consume (s : State) (u : StorageUnit) (fid : Nat) (lanes : Mask) : State :=
  match s.fibre? fid with
  | none => s
  | some f =>
    match (if 9 ≤ u.code then s.opOnLine fid (lineOf u.unit) else none) with
    | some o => s.failOp o 0x15 u.code lanes
    | none => s.postTrap fid ⟨0x15, 0, BitVec.ofNat 16 u.code, lanes, f.ip ((lanesOf lanes).headD 0), 0⟩

/-- The record address of the launch of a consumer, or 0. -/
def State.consumerOf (s : State) (fid : Nat) : Nat :=
  ((((s.fibre? fid).bind fun f => s.team? f.team).bind fun t => s.launch? t.launch).map Launch.recVa).getD 0

/-- An uncorrectable error with its record: of severity 3 when it makes the package fatal, and then before any launch ends. -/
def State.uncorrectable (s : State) (u : StorageUnit) (fid : Nat) (lanes : Mask) : State :=
  let fatal := (s.strike u).pkg.fatal.isSome && s.pkg.fatal.isNone
  let (core, die, twr) := s.whereIs u
  let s := s.errorRecord 10 (if fatal then 3 else 1) 4 core die twr [(0x18, 4, u.code), (0x20, 8, u.unit), (0x28, 8, s.consumerOf fid)]
  ((s.strike u).strikeCore u).consume u fid lanes

/-- UNCORRECTABLE_ERROR (R463 to R465): a unit and the fibre, if any, that would consume it. -/
def execUncorrectableError (u : StorageUnit) (f : Nat) (lanes : Mask) (s : State) : Host.Outcome State Fault Refusal :=
  if 1 ≤ u.code ∧ u.code ≤ 12 then .next (s.uncorrectable u f lanes) else .next s

/-- PATROL_SCRUB (R461, R465): the scrubber reads a unit of codes 7 to 12 and finds it good (0), corrects it (1), or finds it
uncorrectable, without a trap (2). -/
def execPatrolScrub (u : StorageUnit) (found : Nat) (s : State) : Host.Outcome State Fault Refusal :=
  if u.code < 7 ∨ 12 < u.code then .next s
  else match found with
    | 1 => .next (s.corrected u)
    | 2 => .next (s.uncorrectable u 0 0)
    | _ => .next s

/-! ## Loops, bridges and ports (R467 to R470) -/

/-- Sets them. -/
def State.setRetries (s : State) (kind n k : Nat) : State :=
  s.modPkg fun p => { p with linkRetries := SMap.set 0 p.linkRetries (linkKey kind n) k }

/-- A record of type 11. -/
def State.linkRecord (s : State) (sev kind twr n event lanes : Nat) : State :=
  s.errorRecord 11 sev 4 127 31 twr [(0x18, 4, kind), (0x1C, 4, n), (0x20, 4, event), (0x24, 4, lanes)]

/-- A flit fails its check and is sent again, in order, so that nothing else changes; whether it is the one that failed before or another,
with which a burst begins, is free. -/
def State.retry (s : State) (kind twr n peer lanes : Nat) : State :=
  if s.retries kind n ≠ 0 ∧ s.pick (54525952 + linkKey kind n) % 2 = 1 then s.setRetries kind n (s.retries kind n + 1)
  else (s.linkRecord 0 kind twr peer 0 lanes).setRetries kind n 1

/-- What the lanes of a loop read as in a record: free. -/
def State.noLanes (s : State) : Nat := s.pick 54525951

/-- LOOP_FLIT_ERROR (R467). -/
def execLoopFlitError (tower loop : Nat) (s : State) : Host.Outcome State Fault Refusal :=
  if tower < 4 ∧ loop < 16 then .next (s.retry 0 tower (16 * tower + loop) loop s.noLanes) else .next s

/-- LOOP_FAIL (R467): 16 resends of one flit have failed; the packets on the loop are delivered, and its pairs use the loop two
further on. -/
def execLoopFail (tower loop : Nat) (s : State) : Host.Outcome State Fault Refusal :=
  if tower < 4 ∧ loop < 16 ∧ 16 ≤ s.retries 0 (16 * tower + loop) then
    let s := s.modTower tower fun y => { y with loopsFailed := y.loopsFailed ||| BitVec.ofNat 16 (2 ^ loop) }
    .next ((s.linkRecord 1 0 tower loop 2 s.noLanes).setRetries 0 (16 * tower + loop) 0)
  else .next s

/-- The lanes of a bridge: all, counted as 2, or half of them, 1. -/
def State.bridgeLanes (s : State) (t u : Nat) : Nat := if s.pkg.bridgeHalf.contains (min t u, max t u) then 1 else 2

/-- The number of a bridge. -/
def bridgeNo (t u : Nat) : Nat := 4 * min t u + max t u

/-- BRIDGE_CRC_ERROR (R468). -/
def execBridgeCrcError (t u : Nat) (s : State) : Host.Outcome State Fault Refusal :=
  if t < 4 ∧ u < 4 ∧ t ≠ u then .next (s.retry 1 t (bridgeNo t u) u (s.bridgeLanes t u)) else .next s

/-- BRIDGE_RETRAIN (R468): after 8 failed replays the link comes back with all its lanes (2), with half of them (1), or, failing at
half, not at all (0), which is fatal. -/
def execBridgeRetrain (t u : Nat) (lanes : Nat) (s : State) : Host.Outcome State Fault Refusal :=
  if t < 4 ∧ u < 4 ∧ t ≠ u ∧ lanes ≤ 2 ∧ 8 ≤ s.retries 1 (bridgeNo t u) then
    let s := s.setRetries 1 (bridgeNo t u) 0
    if lanes = 0 then .next ((s.linkRecord 3 1 t u 2 0).goFatal 0xFFFF0007)
    else
      let half := s.pkg.bridgeHalf.filter fun p => p != (min t u, max t u)
      let s := s.modPkg fun p => { p with bridgeHalf := if lanes = 1 then half ++ [(min t u, max t u)] else half }
      .next (s.linkRecord 1 1 t u 1 lanes)
  else .next s

/-- ZUNOS_CRC_ERROR (R469): with the eighth failed replay the port retrains, its UP clear. -/
def execZunosCrcError (port : Nat) (s : State) : Host.Outcome State Fault Refusal :=
  if port < 18 ∧ (s.port port).getLsbD 0 then
    let s := s.retry 2 (portTower port) port port (bits (s.port port).toNat 4 1)
    .next (if 8 ≤ s.retries 2 port then s.setPort port false 0 else s)
  else .next s

/-- PORT_RETRAIN (R469): after 8 failed replays the port comes back with 8, 4 or 2 lanes. Without them it is the firmware that
recalibrates a link that is up, as an in-service change (R408; log 87). -/
def execPortRetrain (port lanes : Nat) (s : State) : Host.Outcome State Fault Refusal :=
  if 18 ≤ port ∨ !(lanes = 8 ∨ lanes = 4 ∨ lanes = 2) then .next s
  else if 8 ≤ s.retries 2 port then
    .next (((s.setPort port true lanes).linkRecord 1 2 (portTower port) port 1 lanes).setRetries 2 port 0)
  else if (s.port port).getLsbD 0 ∧ !s.recalibrates port then .next (s.addChange (portTower port) (3, port, lanes))
  else .next s

/-- PORT_DEAD (R470): the port fails at 2 lanes too; what was on it and not acknowledged is gone, and its flows take other ports. -/
def execPortDead (port : Nat) (s : State) : Host.Outcome State Fault Refusal :=
  if port < 18 ∧ 8 ≤ s.retries 2 port then
    .next (((s.setPort port false 0).linkRecord 1 2 (portTower port) port 2 0).setRetries 2 port 0)
  else .next s

/-! ## The Bellwether channel (R473) -/

/-- The beat that has failed 8 resends. -/
def State.failedBeat (s : State) (tower : Nat) : Option Beat := (s.tower tower).beats.find? fun b => b.bad && decide (8 ≤ b.resends)

/-- BELLWETHER_CHANNEL_TEST (R473): the tower's launches are pre-empted as on a thermal stop, and the channels that fail the test are
removed; the beats that were held are then applied in key order. -/
def execBellwetherChannelTest (tower : Nat) (failed : BitVec 8) (s : State) : Host.Outcome State Fault Refusal :=
  match s.failedBeat tower with
  | none => .next s
  | some b =>
    let s := s.stopTower tower
    let s := s.modTower tower fun y =>
      { y with removed := y.removed ||| failed, beats := replaceBy (fun c => c == b) (fun c => { c with bad := false }) y.beats }
    let s := s.applyHeld tower 1025
    .next (s.errorRecord 12 (if failed = 0 then 0 else 1) 4 127 31 tower
      [(0x18, 4, b.entry / 64), (0x1C, 4, b.entry), (0x20, 8, (b.key.map Prod.fst).getD 0), (0x28, 4, b.resends)])

/-! ## Firmware cores (R406, R477, R478) -/

/-- A firmware core. -/
def State.fwCore (s : State) (n : Nat) : FwCore := s.pkg.fw.getD n FwCore.reset

/-- Whether a firmware core runs: the package has booted and the core is up. -/
def State.fwRuns (s : State) (n : Nat) : Bool := decide (s.pkg.boot = .up) && decide (1 ≤ n) && decide (n ≤ 7) && !(s.fwCore n).down

/-- Whether its heartbeat is due. -/
def State.beatDue (s : State) (n : Nat) : Bool := s.fwRuns n && decide ((s.fwCore n).lastBeat + 2 ^ 20 ≤ s.now)

/-- The first of the firmware cores that pass a test. -/
def firstCore (due : Nat → Bool) : Option Nat := (List.range 8).find? due

/-- The primary of a pair sends its driver state to the standby with `put` and writes its heartbeat counter, at the heartbeat of core 1,
which serves the pair; where they lie, and what the state is, is free (R406; log 88). -/
def State.pairBeats (s : State) (core : Nat) : State :=
  match s.pkg.pair with
  | some (partner, 0) =>
    if core ≠ 1 ∨ s.pkg.displaced then s
    else
      let s := s.emit .write true partner 0 s.freeWire 0 s.freeSpec s.freePayload
      let s := s.modPkg fun p => { p with pairCount := p.pairCount + 1, pairBeat := s.now }
      s.emit .write false partner 0 s.freeWire (s.freeWire.1) s.freeSpec (toLe 4 s.pkg.pairCount.toNat)
  | _ => s

/-- HEARTBEAT (R406, R477): of the first core whose heartbeat is due. -/
def execHeartbeat (s : State) : Host.Outcome State Fault Refusal :=
  match firstCore s.beatDue with
  | some core => .next ((s.modFw core fun f => { f with heartbeat := f.heartbeat + 1, lastBeat := s.now }).pairBeats core)
  | none => .next s

/-- Whether its heartbeat has not changed for 2^22 cycles. -/
def State.beatLost (s : State) (n : Nat) : Bool :=
  decide (s.pkg.boot = .up) && decide (s.pkg.fatal = none) && decide (1 ≤ n) && decide (n ≤ 7) && decide ((s.fwCore n).lastBeat + 2 ^ 22 ≤ s.now)

/-- A queue as a restarted scheduler reloads it: a Mapped one is Unmapped, and its kick is seen anew. -/
def State.reloadQueue (s : State) (q : UQueue) : UQueue :=
  let q := if q.state = .mapped then { q with state := .unmapped, slot := 0, watching := false, saving := false } else q
  match (s.virtRead q.ctx q.qcb 64).1 with
  | some v => { q with wrptr := BitVec.ofNat 32 (bits v 159 128), rung := q.rung || decide (s.doorbell q ≠ some (bits v 159 128)) }
  | none => q

/-- Core 2 starts anew: it reloads every block. -/
def State.reloadQueues (s : State) : State :=
  { s with queues := s.queues.map s.reloadQueue, watches := s.watches.filter fun w => w.queue.isNone }

/-- A firmware core has failed: core 0 verifies the image again and starts the core from its initial state; two failures of one core
within 2^34 cycles are fatal (R477). -/
def State.coreFails (s : State) (core : Nat) : State :=
  let recent := (s.fwCore core).failures.filter fun c => decide (s.now ≤ c + 2 ^ 34)
  let s := s.modFw core fun f => { f with failures := recent ++ [s.now], lastBeat := s.now }
  if recent ≠ [] then (s.errorRecord 15 3 4 127 31 s.anyTower [(0x18, 4, core), (0x1C, 4, 1)]).goFatal 0xFFFF0007
  else
    let s := s.errorRecord 15 1 4 127 31 s.anyTower [(0x18, 4, core), (0x1C, 4, 0)]
    let ok := Config.verifies core (s.imageOf core)
    let s := s.modFw core fun f => { f with heartbeat := 0, down := !ok, handover := none }
    if core = 2 then s.reloadQueues else if core = 5 then s.addChange 0 (4, 0, 0) else s

/-- HEARTBEAT_TIMEOUT (R477): of the first core whose heartbeat has not changed. -/
def execHeartbeatTimeout (s : State) : Host.Outcome State Fault Refusal :=
  match firstCore s.beatLost with
  | some core => .next (s.coreFails core)
  | none => .next s

/-- CORE0_FAILURE (R478). -/
def execCore0Failure (s : State) : Host.Outcome State Fault Refusal :=
  .next ((s.errorRecord 15 3 4 127 31 s.anyTower [(0x18, 4, 0), (0x1C, 4, 1)]).goFatal 0xFFFF0006)

/-- STANDBY_TAKEOVER (R406): after 2^24 cycles without an increase the standby is primary; the former primary, which has written none,
refuses commands. -/
def execStandbyTakeover (s : State) : Host.Outcome State Fault Refusal :=
  match s.pkg.pair with
  | none => .next s
  | some (partner, role) =>
    if s.now < s.pkg.pairBeat + 2 ^ 24 then .next s
    else if role = 1 then .next (s.modPkg fun p => { p with pair := some (partner, 0) })
    else .next (s.modPkg fun p => { p with displaced := true })

end Sys2Proof.Machine
end

