-- ==== Sys2Proof/Machine/Control.lean ====
section
/-! DEFINITION. The control group (R197 to R204), the illegal instruction (R183), the fetch outside the code range
(R419) and the lapse of a nap (R202). -/

namespace Sys2Proof.Machine

/-- The target of a lane (R198). -/
def Iss.target (x : Iss) (relative : Bool) (L : Nat) : Nat :=
  if x.e.hasLit ∧ x.pos = 2 then x.e.literal
  else if relative then wrap 32 (x.v.ip.toNat + signed 19 x.e.a.imm)
  else x.src 2 .u32 L

/-- The transfer of R199: every target of ACTIVE lies in the code range, or no lane moves; `link` writes IP + 1. -/
def Iss.transfer (x : Iss) (s : State) (tgt : Nat → Nat) (link : Bool) : Act :=
  let s := if link then
      s.writeRegs x.v.f.id (some (x.v.s.now + 2)) (x.writesTo x.e.d 1 x.act fun _ => (x.v.ip + 1).toNat)
    else s
  .moved (s.modFibre x.v.f.id fun f =>
    { f with ips := SMap.setLanes 0 f.ips 0 (lanesOf x.act) fun L => BitVec.ofNat 32 (tgt L) })

/-- The lanes whose target lies outside the code range (R199). -/
def Iss.badTargets (x : Iss) (tgt : Nat → Nat) : Mask := x.lanes fun L => !x.v.kernel.inRange (tgt L)

/-- `bra`, `brx`, `call` and `ret` (R199). -/
def Iss.branch (x : Iss) (tgt : Nat → Nat) (link : Bool) : Act :=
  let bad := x.badTargets tgt
  if bad ≠ 0 then .trap 9 2 1 bad 0 else x.transfer x.v.s tgt link

/-- BRA (R199). -/
def execBra (e : Enc) (s : State) : Host.Outcome State Fault Refusal :=
  issue (.bra e) e noStep3 (fun x => x.branch (x.target true) false) s

/-- BRX (R199). -/
def execBrx (e : Enc) (s : State) : Host.Outcome State Fault Refusal :=
  issue (.brx e) e noStep3 (fun x => x.branch (x.target false) false) s

/-- CALL (R199). -/
def execCall (e : Enc) (s : State) : Host.Outcome State Fault Refusal :=
  issue (.call e) e noStep3 (fun x => x.branch (x.target true) true) s

/-- RET (R199). -/
def execRet (e : Enc) (s : State) : Host.Outcome State Fault Refusal :=
  issue (.ret e) e noStep3 (fun x => x.branch (x.target false) false) s

/-- The fetches of the entry `nop` at each target, in lane order: the lanes that a missing page or a failure meets, and
what it is (R200). -/
def Iss.fetchTargets (x : Iss) (tgt : Nat → Nat) : List Nat → State → List (Nat × Fetch) × State
  | [], s => ([], s)
  | L :: Ls, s =>
    let (r, s) := s.fetch x.v.t.core x.v.l (tgt L)
    let (rs, s) := x.fetchTargets tgt Ls s
    ((L, r) :: rs, s)

/-- The entry `nop` at an IP: its vector and uniform counts, if it is one (R190, R200). -/
def entryCounts (l : Launch) (ip : Nat) : Option (Nat × Nat) :=
  let w := l.wordAt ip
  let e := Enc.ofBits w
  if opOf w = 0x008 ∧ e.mod = 1 then some (e.a.imm, e.b.imm) else none

/-- The failure of a fetch. -/
def Fetch.failure : Fetch → Option (Nat × Nat)
  | .bad c d => some (c, d)
  | _ => none

/-- The missing page of a fetch. -/
def Fetch.miss : Fetch → Option Miss
  | .held m => some m
  | _ => none

/-- `calli` checks its targets, then transfers (R200). -/
def Iss.calli (x : Iss) : Act :=
  let tgt := x.target false
  let bad := x.badTargets tgt
  if bad ≠ 0 then .trap 9 2 1 bad 0
  else
    let (rs, s) := x.fetchTargets tgt (lanesOf x.act) x.v.s
    match worstWalk (rs.filterMap fun p => p.2.failure.map fun q => (p.1, q.1, q.2)) with
    | some (m, c, d) => .trap c 0 d m 0
    | none =>
      let misses := rs.filterMap fun p => p.2.miss
      if misses ≠ [] then .hold (s.holdOn x.v.f.id x.v.t.core x.v.l.ctx misses)
      else
        let l := (s.launch? x.v.l.id).getD x.v.l
        let counts := fun L => entryCounts l (tgt L)
        let noEntry := x.lanes fun L => (counts L).isNone
        let overV := x.lanes fun L => decide (x.v.size < ((counts L).getD (0, 0)).1)
        let overS := x.lanes fun L => decide (x.v.f.allot < ((counts L).getD (0, 0)).2)
        if noEntry ≠ 0 then .trap 9 2 2 noEntry 0
        else if overV ≠ 0 then .trap 10 2 1 overV 0
        else if overS ≠ 0 then .trap 10 2 2 overS 0
        else x.transfer s tgt true

/-- CALLI (R199, R200). -/
def execCalli (e : Enc) (s : State) : Host.Outcome State Fault Refusal :=
  issue (.calli e) e noStep3 Iss.calli s

/-- EXIT (R54, R201). -/
def execExit (e : Enc) (s : State) : Host.Outcome State Fault Refusal :=
  issue (.exit e) e noStep3 (fun x => .moved (x.v.s.exitLanes x.v.f.id x.act)) s

/-- The slot of a fibre passes to another Ready fibre of the slot, if there is one; the fibre stays Ready (R48). -/
def State.yieldSlot (s : State) (f : Fibre) (t : Team) : State :=
  match s.nextReady f t.perSlot with
  | some g => (s.modFibre f.id fun x => { x with run := .ready }).setCurrent t.core (t.slotOf f) (some g.id)
  | none => s

/-- YIELD (R201). -/
def execYield (e : Enc) (s : State) : Host.Outcome State Fault Refusal :=
  issue (.yield e) e noStep3 (fun x => .next (x.v.s.yieldSlot x.v.f x.v.t)) s

/-- NOP (R201). -/
def execNop (e : Enc) (s : State) : Host.Outcome State Fault Refusal :=
  issue (.nop e) e noStep3 (fun x => .next x.v.s) s

/-- NOP_ENTRY (R190, R201). -/
def execNopEntry (e : Enc) (s : State) : Host.Outcome State Fault Refusal :=
  issue (.nopEntry e) e noStep3 (fun x => .next x.v.s) s

/-- NAP (R202). -/
def execNap (e : Enc) (s : State) : Host.Outcome State Fault Refusal :=
  issue (.nap e) e noStep3 (fun x =>
    let n := x.u32 2
    if n = 0 then .next x.v.s else x.park x.v.s .parked (.nap (x.v.s.now + n) x.act)) s

/-- SGW (R203). -/
def execSgw (e : Enc) (s : State) : Host.Outcome State Fault Refusal :=
  issue (.sgw e) e noStep3 (fun x =>
    let w := x.u32 2
    if w ∈ [1, 2, 4, 8, 16, 32] then
      .next (x.v.s.modFibre x.v.f.id fun f => { f with sgw := BitVec.ofNat 32 w })
    else x.badValue 2 x.act) s

/-- IPGET (R204). -/
def execIpget (e : Enc) (s : State) : Host.Outcome State Fault Refusal :=
  issue (.ipget e) e noStep3 (fun x =>
    x.fixed 2 (x.writesTo e.d 1 x.act fun _ => wrap 32 (x.v.ip.toNat + signed 19 e.a.imm))) s

/-- Raises a trap for the ready lanes at the cursor's IP (R83). -/
def State.raiseHere (s : State) (cause detail : Nat) : Host.Outcome State Fault Refusal :=
  match s.view with
  | none => .fault .noFibre
  | some v => .next (s.raise v.f.id ⟨BitVec.ofNat 8 cause, 0, BitVec.ofNat 16 detail, v.mask, v.ip, 0⟩)

/-- ILLEGAL_INSTRUCTION (R169 checks 1 and 2, R183). -/
def execIllegalInstruction (w : BitVec 160) (s : State) : Host.Outcome State Fault Refusal :=
  s.raiseHere 1 (w.toNat % 2 ^ 16)

/-- FETCH_OUTSIDE_CODE (R419). -/
def execFetchOutsideCode (s : State) : Host.Outcome State Fault Refusal := s.raiseHere 9 3

/-- Whether a fibre's nap has lapsed (R202). -/
def State.napLapsed (s : State) (f : Nat) : Option Mask :=
  match s.fibre? f with
  | some x => match x.waits with
    | .nap u lanes => if u ≤ s.now then some lanes else none
    | _ => none
  | none => none

/-- NAP_EXPIRY (R202). -/
def execNapExpiry (f : Nat) (s : State) : Host.Outcome State Fault Refusal :=
  match s.napLapsed f with
  | some lanes => .next (s.wakePast f lanes)
  | none => .next s

end Sys2Proof.Machine
end

