-- ==== Sys2Proof/Machine/CrossLane.lean ====
section
/-! DEFINITION. The cross-lane instructions (R216 to R220). -/

namespace Sys2Proof.Machine

/-- The member mask M of field E (R216). -/
def Iss.members (x : Iss) : Nat :=
  match x.e.e.cls with
  | .none => 2 ^ 32 - 1
  | _ => x.u32 5

/-- The first lane of L's sub-group under a width (R175). -/
def subBase (w L : Nat) : Nat := L - L % w

/-- K of R217: the lanes of L's sub-group that are in ACTIVE and in M. -/
def Iss.group (x : Iss) (M L : Nat) : List Nat :=
  let w := x.v.f.sgw.toNat
  (lanesOf x.act).filter fun j => subBase w j = subBase w L && bitN M j

/-- The frame of R217: a lane in M gets F, any other its own value with validity 0. D has `n` words and latency λ. -/
def Iss.cross (x : Iss) (lam n : Nat) (own : Nat → Nat) (F : Nat → List Nat → Nat × Bool) : Act :=
  let M := x.members
  let r := fun L => if bitN M L then F L (x.group M L) else (own L, false)
  x.fixed lam (x.writesTo x.e.d n x.act (fun L => (r L).1) ++ x.writesTo x.e.c 1 x.act fun L => b2n (r L).2)

/-- The predicate A of a vote in a lane, NEG applied (R172). -/
def Iss.voteBit (x : Iss) (L : Nat) : Bool := x.v.pred x.e.a.num.toNat L != x.e.a.neg

/-- VOTE_ANY (R217). -/
def execVoteAny (e : Enc) (s : State) : Host.Outcome State Fault Refusal :=
  issue (.voteAny e) e noStep3 (fun x =>
    x.cross 6 1 (fun L => b2n (x.voteBit L)) fun _ K => (b2n (K.any x.voteBit), true)) s

/-- VOTE_ALL (R217). -/
def execVoteAll (e : Enc) (s : State) : Host.Outcome State Fault Refusal :=
  issue (.voteAll e) e noStep3 (fun x =>
    x.cross 6 1 (fun L => b2n (x.voteBit L)) fun _ K => (b2n (K.all x.voteBit), true)) s

/-- The ballot of a list of lanes. -/
def Iss.ballot (x : Iss) (K : List Nat) : Nat := (maskOf (K.filter x.voteBit)).toNat

/-- VOTE_BALL (R217): a uniform D receives the ballot of every sub-group once. -/
def execVoteBall (e : Enc) (s : State) : Host.Outcome State Fault Refusal :=
  issue (.voteBall e) e noStep3 (fun x =>
    if e.d.cls = .uni then
      let M := x.members
      let w := x.ballot ((lanesOf x.act).filter fun j => bitN M j)
      x.fixed 6 (x.writesTo e.d 1 x.act (fun _ => w) ++ x.writesTo e.c 1 x.act fun L => b2n (bitN M L))
    else x.cross 6 1 (fun L => x.ballot [L]) fun _ K => (x.ballot K, true)) s

/-- VOTE_EQ (R217). -/
def execVoteEq (e : Enc) (s : State) : Host.Outcome State Fault Refusal :=
  issue (.voteEq e) e noStep3 (fun x =>
    x.cross 6 1 (fun _ => 1) fun _ K => (b2n (K.all x.voteBit || K.all fun j => !x.voteBit j), true)) s

/-- A of a lane: a register or a pair, without pattern (R216). -/
def Iss.own (x : Iss) (L : Nat) : Nat := x.v.regs .vec x.e.a.num.toNat L x.ty.words

/-- The source lane of `shfl`, if there is one (R219). -/
def shflLane (mode w L n : Nat) (step : Int) : Option Nat :=
  let m := L % w
  let b := L - m
  match mode with
  | 0 => some (b + n % w)
  | 1 => some (b + (m + n) % w)
  | 2 => if 0 ≤ m + step ∧ m + step < w then some (b + (m + step).toNat) else none
  | _ => some (b + (m ^^^ (n % w)))

/-- SHFL (R219). -/
def execShfl (e : Enc) (s : State) : Host.Outcome State Fault Refusal :=
  issue (.shfl e) e noStep3 (fun x =>
    x.cross 6 x.ty.words x.own fun L K =>
      let n := x.src 3 .u32 L
      match shflLane e.var x.v.f.sgw.toNat L n (signed 32 n) with
      | some j => if K.contains j then (x.own j, true) else (x.own L, false)
      | none => (x.own L, false)) s

/-- The operations of `lred` and `lscan` (R220). -/
def lredOp (code : Nat) (ty : Ty) (a b : Nat) : Nat :=
  match code with
  | 0 => (a + b) % 2 ^ ty.n
  | 1 => if ty.int? a 0 ≤ ty.int? b 0 then a else b
  | 2 => if ty.int? a 0 ≤ ty.int? b 0 then b else a
  | 3 => a &&& b
  | 4 => a ||| b
  | _ => a ^^^ b

/-- Their identities (R220). -/
def lredId (code : Nat) (ty : Ty) : Nat :=
  match code with
  | 1 => if ty.sg then 2 ^ (ty.n - 1) - 1 else 2 ^ ty.n - 1
  | 2 => if ty.sg then 2 ^ (ty.n - 1) else 0
  | 3 => 2 ^ ty.n - 1
  | _ => 0

/-- Combines A over lanes (R220). -/
def Iss.combine (x : Iss) (K : List Nat) : Nat :=
  K.foldl (fun a j => lredOp x.e.var x.ty a (x.own j)) (lredId x.e.var x.ty)

/-- LRED (R220). -/
def execLred (e : Enc) (s : State) : Host.Outcome State Fault Refusal :=
  issue (.lred e) e noStep3 (fun x => x.cross 8 x.ty.words x.own fun _ K => (x.combine K, true)) s

/-- LSCAN (R220): inclusive, or exclusive with EXT[0]. -/
def execLscan (e : Enc) (s : State) : Host.Outcome State Fault Refusal :=
  issue (.lscan e) e noStep3 (fun x =>
    x.cross 8 x.ty.words x.own fun L K =>
      (x.combine (K.filter fun j => if e.ext3 = 1 then j < L else j ≤ L), true)) s

/-- MATCH (R217): the mask, the rank or the count of the members that hold L's value. -/
def execXmatch (e : Enc) (s : State) : Host.Outcome State Fault Refusal :=
  issue (.xmatch e) e noStep3 (fun x =>
    let own := fun L => match e.var with
      | 0 => 2 ^ L
      | 1 => 0
      | _ => 1
    x.cross 6 1 own fun L K =>
      let same := K.filter fun j => x.own j = x.own L
      (match e.var with
        | 0 => (maskOf same).toNat
        | 1 => (same.filter fun j => j < L).length
        | _ => same.length, true)) s

/-- ELECT (R217): the lowest lane of K. -/
def execElect (e : Enc) (s : State) : Host.Outcome State Fault Refusal :=
  issue (.elect e) e noStep3 (fun x =>
    x.cross 6 1 (fun _ => 0) fun L K => (b2n (K.head? = some L), true)) s

end Sys2Proof.Machine
end

