-- ==== Sys2Proof/Machine/Sfn.lean ====
section
/-! DEFINITION. The special functions (R231, R232), by exact arithmetic on fixed-point bounds far finer than any format:
a value that is not representable is held as a fraction on its own side of every rounding boundary. -/

namespace Sys2Proof.Machine

/-! ## Constants and series, in units of 2^-400 -/

/-- One. -/
def fxOne : Nat := 2 ^ 400

/-- π in units of 2^-640. -/
def piFx : Nat :=
  0x3243f6a8885a308d313198a2e03707344a4093822299f31d0082efa98ec4e6c89452821e638d01377be5466cf34e90c6cc0ac29b7c97c50dd3f84d5b5b54709179216d5d98979fb1bd1310ba698dfb5ac

/-- ln 2. -/
def ln2Fx : Nat :=
  0xb17217f7d1cf79abc9e3b39803f2f6af40f343267298b62d8a0d175b8baafa2be7b876206debac98559552fb4afa1b10ed2e

/-- 2 / √π. -/
def twoOverRootPiFx : Nat :=
  0x120dd750429b6d11ae3a914fed7fd8688281341d7587cea2e7342b06199cc416180eb39f0b24e1e2281806c12d98f35d77a3e

/-- The series 1 + t/n (1 + t/(n+1) (…)) of e^t from n = 1. -/
def expSeries (t : Nat) : Nat → Nat → Nat
  | 0, _ => fxOne
  | k + 1, n => fxOne + t * expSeries t k (n + 1) / fxOne / n

/-- The series 1 − rr/((2n)(2n+1)) (…) of sin r / r, with rr = r². -/
def sinSeries (rr : Nat) : Nat → Nat → Nat
  | 0, _ => fxOne
  | k + 1, n => fxOne - rr * sinSeries rr k (n + 1) / fxOne / (2 * n * (2 * n + 1))

/-- The series 1 − rr/((2n−1)(2n)) (…) of cos r. -/
def cosSeries (rr : Nat) : Nat → Nat → Nat
  | 0, _ => fxOne
  | k + 1, n => fxOne - rr * cosSeries rr k (n + 1) / fxOne / ((2 * n - 1) * (2 * n))

/-- The series 1/(2n+1) + tt (1/(2n+3) + …) of atanh t / t, with tt = t². -/
def atanhSeries (tt : Nat) : Nat → Nat → Nat
  | 0, n => fxOne / (2 * n + 1)
  | k + 1, n => fxOne / (2 * n + 1) + tt * atanhSeries tt k (n + 1) / fxOne

/-- The series 1 + 2q/(2n+1) (…) from n = 1, with erf z = 2/√π z e^−q S and q = z². -/
def erfSeries (q : Nat) : Nat → Nat → Nat
  | 0, _ => fxOne
  | k + 1, n => fxOne + 2 * q * erfSeries q k (n + 1) / fxOne / (2 * n + 1)

/-! ## Values -/

/-- What a special function gives: a representable or special value with its flags, or a magnitude n / d that no format
represents. -/
inductive Sf where
  | exact (v : Val) (fl : Nat)
  | near (neg : Bool) (n d : Nat)

/-- A fraction nudged off every boundary. -/
def Sf.off (neg : Bool) (n d : Nat) : Sf := .near neg (2 * n + 1) (2 * d)

/-- A magnitude just below a fraction. -/
def Sf.below (neg : Bool) (n d : Nat) : Sf := .near neg (n * (2 ^ 60 - 1)) (d * 2 ^ 60)

/-- A magnitude just above a fraction. -/
def Sf.above (neg : Bool) (n d : Nat) : Sf := .near neg (n * (2 ^ 60 + 1)) (d * 2 ^ 60)

/-- A magnitude below half the least subnormal of every format. -/
def Sf.tiny (neg : Bool) : Sf := .near neg 1 (2 ^ 200)

/-- The canonical NaN of a domain error (R232). -/
def Sf.domain : Sf := .exact (.nan false) NV

/-- The exact integer value ±m. -/
def Sf.int (neg : Bool) (m : Nat) : Sf := .exact (.fin neg m 0) 0

/-- The magnitude of a finite value in units of 2^-400, truncated. -/
def fxOf (m : Nat) (e : Int) : Nat :=
  let p := frac m e
  p.1 * fxOne / p.2

/-- Whether a magnitude is below 2^-40, or at least 2^k. -/
def isSmall (m : Nat) (e : Int) : Bool := decide (bitLen m + e ≤ -40)

/-- Whether a magnitude is at least a natural number. -/
def atLeast (m : Nat) (e : Int) (k : Nat) : Bool :=
  let p := frac m e
  decide (k * p.2 ≤ p.1)

/-- e^−y for y at least 0 in units of 2^-400, as (mantissa, k): mantissa × 2^-k. -/
def expNeg (y : Nat) : Nat × Nat :=
  let k := y / ln2Fx + 1
  (expSeries (k * ln2Fx - y) 90 1, k)

/-- The nearest integers to a fraction of naturals: floor and rest. -/
def splitFx (x : Nat) : Nat × Nat := (x / fxOne, x % fxOne)

/-! ## The functions on a finite nonzero ±m × 2^e -/

/-- 1 / √x for positive x. -/
def rsqrtSf (m : Nat) (e : Int) : Sf :=
  let p := frac m e
  let sq := p.2 * 2 ^ 800 / p.1
  let r := Nat.sqrt sq
  if r * r * p.1 = p.2 * 2 ^ 800 then .exact (.fin false r (-400)) 0 else Sf.off false r (2 ^ 400)

/-- √x for positive x. -/
def sqrtSf (m : Nat) (e : Int) : Sf :=
  let p := frac m e
  let sq := p.1 * 2 ^ 800 / p.2
  let r := Nat.sqrt sq
  if r * r * p.2 = p.1 * 2 ^ 800 then .exact (.fin false r (-400)) 0 else Sf.off false r (2 ^ 400)

/-- 2^x. -/
def exp2Sf (neg : Bool) (m : Nat) (e : Int) : Sf :=
  if atLeast m e 300 then (if neg then Sf.tiny false else .near false (3 * 2 ^ 300) 1)
  else if isSmall m e then (if neg then Sf.below false 1 1 else Sf.above false 1 1)
  else
    let p := frac m e
    if p.1 % p.2 = 0 then .exact (.fin false 1 (if neg then -(p.1 / p.2 : Nat) else (p.1 / p.2 : Nat))) 0
    else
      let x := fxOf m e
      -- 2^(i + f) with f in [0, 1)
      let i := x / fxOne
      let f := x % fxOne
      if neg then Sf.off false (expSeries ((fxOne - f) * ln2Fx / fxOne) 110 1) (fxOne * 2 ^ (i + 1))
      else Sf.off false (expSeries (f * ln2Fx / fxOne) 110 1 * 2 ^ i) fxOne

/-- log₂ x for positive x. -/
def log2Sf (m : Nat) (e : Int) : Sf :=
  let l := Nat.log2 m
  if m = 2 ^ l then
    let x : Int := e + l
    .exact (.fin (decide (x < 0)) x.natAbs 0) 0
  else
    let M := m * fxOne / 2 ^ l
    let big := decide (3 * fxOne < 2 * M)
    let M := if big then M / 2 else M
    let x : Int := e + l + (if big then 1 else 0)
    let up := decide (fxOne ≤ M)
    let t := (if up then M - fxOne else fxOne - M) * fxOne / (M + fxOne)
    let ln := 2 * t * atanhSeries (t * t / fxOne) 100 0 / fxOne
    let fr : Int := (ln * fxOne / ln2Fx : Nat)
    let total := x * (fxOne : Int) + (if up then fr else -fr)
    Sf.off (decide (total < 0)) total.natAbs fxOne

/-- The quadrant of x mod 2π (0 to 3), and the rest from the nearest multiple of π/2 with its sign (R231). -/
def trigReduce (m : Nat) (e : Int) : Nat × Bool × Nat :=
  let p := frac m e
  let x := 2 * (p.1 * 2 ^ 640) / p.2
  -- x and π in units of 2^-641: j is the nearest integer to x / π
  let j := (2 * x + piFx) / (2 * piFx)
  let lo := decide (x < j * piFx)
  let r := if lo then j * piFx - x else x - j * piFx
  (j % 4, lo, r / 2 ^ 241)

/-- ±sin r or ±cos r. -/
def trigSf (neg : Bool) (useCos : Bool) (r : Nat) : Sf :=
  let rr := r * r / fxOne
  if useCos then Sf.off neg (cosSeries rr 60 1) fxOne else Sf.off neg (r * sinSeries rr 60 1 / fxOne) fxOne

/-- sin x. -/
def sinSf (neg : Bool) (m : Nat) (e : Int) : Sf :=
  if isSmall m e then Sf.below neg (frac m e).1 (frac m e).2
  else match trigReduce m e with
    | (0, lo, r) => trigSf (neg != lo) false r
    | (1, _, r) => trigSf neg true r
    | (2, lo, r) => trigSf (neg == lo) false r
    | (_, _, r) => trigSf (!neg) true r

/-- cos x. -/
def cosSf (m : Nat) (e : Int) : Sf :=
  if isSmall m e then Sf.below false 1 1
  else match trigReduce m e with
    | (0, _, r) => trigSf false true r
    | (1, lo, r) => trigSf (!lo) false r
    | (2, _, r) => trigSf true true r
    | (_, lo, r) => trigSf lo false r

/-- tanh x. -/
def tanhSf (neg : Bool) (m : Nat) (e : Int) : Sf :=
  if isSmall m e then Sf.below neg (frac m e).1 (frac m e).2
  else if atLeast m e 64 then Sf.below neg 1 1
  else
    let u := expNeg (2 * fxOf m e)
    let w := u.1 / 2 ^ u.2
    Sf.off neg (fxOne - w) (fxOne + w)

/-- 1 / (1 + e^−x) as a fraction for a magnitude below 200 and not small. -/
def sigmFrac (neg : Bool) (m : Nat) (e : Int) : Nat × Nat :=
  let u := expNeg (fxOf m e)
  let w := u.1 / 2 ^ u.2
  if neg then (u.1, (fxOne + w) * 2 ^ u.2) else (fxOne, fxOne + w)

/-- 1 / (1 + e^−x). -/
def sigmSf (neg : Bool) (m : Nat) (e : Int) : Sf :=
  if isSmall m e then (if neg then Sf.below false 1 2 else Sf.above false 1 2)
  else if atLeast m e (if neg then 200 else 64) then (if neg then Sf.tiny false else Sf.below false 1 1)
  else
    let f := sigmFrac neg m e
    Sf.off false f.1 f.2

/-- x / (1 + e^−x). -/
def siluSf (neg : Bool) (m : Nat) (e : Int) : Sf :=
  let p := frac m e
  if isSmall m e then (if neg then Sf.below true p.1 (2 * p.2) else Sf.above false p.1 (2 * p.2))
  else if atLeast m e (if neg then 200 else 64) then (if neg then Sf.tiny true else Sf.below false p.1 p.2)
  else
    let f := sigmFrac neg m e
    Sf.off neg (f.1 * p.1) (f.2 * p.2)

/-- erf z for q = z², below 110, in units of 2^-400. -/
def erfFx (z q : Nat) : Nat :=
  let u := expNeg q
  let s := erfSeries q (150 + 5 * (q / fxOne + 1)) 1
  twoOverRootPiFx * z / fxOne * s / fxOne * u.1 / fxOne / 2 ^ u.2

/-- erf x. -/
def erfSf (neg : Bool) (m : Nat) (e : Int) : Sf :=
  let p := frac m e
  if isSmall m e then Sf.off neg (twoOverRootPiFx * p.1 * (2 ^ 90 - 1)) (fxOne * p.2 * 2 ^ 90)
  else if atLeast m e 8 then Sf.below neg 1 1
  else
    let z := fxOf m e
    Sf.off neg (erfFx z (z * z / fxOne)) fxOne

/-- x × ½ × (1 + erf(x / √2)). -/
def geluSf (neg : Bool) (m : Nat) (e : Int) : Sf :=
  let p := frac m e
  if isSmall m e then (if neg then Sf.below true p.1 (2 * p.2) else Sf.above false p.1 (2 * p.2))
  else if atLeast m e (if neg then 15 else 14) then (if neg then Sf.tiny true else Sf.below false p.1 p.2)
  else
    let x := fxOf m e
    let E := erfFx (Nat.sqrt (x * x / 2)) (x * x / fxOne / 2)
    let h := if neg then fxOne - E else fxOne + E
    Sf.off neg (h * p.1) (2 * fxOne * p.2)

/-- A special function by its place in the opcode order, on any value (R231, R232). -/
def sfnVal (code : Nat) (x : Val) : Sf :=
  match x with
  | .nan sig => .exact (.nan false) (flagIf sig NV)
  | .inf neg =>
    match code with
    | 0 => .exact (.fin neg 0 0) 0
    | 1 => if neg then Sf.domain else Sf.int false 0
    | 2 | 4 => if neg then Sf.domain else .exact (.inf false) 0
    | 3 => if neg then Sf.int false 0 else .exact (.inf false) 0
    | 5 | 6 => Sf.domain
    | 7 | 11 => Sf.int neg 1
    | 8 => Sf.int false (if neg then 0 else 1)
    | _ => if neg then Sf.int true 0 else .exact (.inf false) 0
  | .fin neg m e =>
    if m = 0 then
      match code with
      | 0 | 1 => .exact (.inf neg) DZ
      | 4 => .exact (.inf true) DZ
      | 3 | 6 => Sf.int false 1
      | 8 => .exact (.fin false 1 (-1)) 0
      | _ => Sf.int neg 0
    else
      match code with
      | 0 =>
        let p := frac m e
        -- 1 / x is representable only for a power of two
        if m = 2 ^ Nat.log2 m then .exact (.fin neg 1 (-(e + Nat.log2 m))) 0 else .near neg p.2 p.1
      | 1 => if neg then Sf.domain else rsqrtSf m e
      | 2 => if neg then Sf.domain else sqrtSf m e
      | 3 => exp2Sf neg m e
      | 4 => if neg then Sf.domain else log2Sf m e
      | 5 => sinSf neg m e
      | 6 => cosSf m e
      | 7 => tanhSf neg m e
      | 8 => sigmSf neg m e
      | 9 => geluSf neg m e
      | 10 => siluSf neg m e
      | _ => erfSf neg m e

/-- Rounds what a special function gives in a mode. -/
def Sf.round (f : Fmt) (mode : Nat) : Sf → Nat × Nat
  | .exact v fl => let p := f.round mode false v; (p.1, p.2 ||| fl)
  | .near neg n d => f.roundQ mode false neg n d

/-- Whether FP32 results are faithful and not correctly rounded (R231). -/
def sfnFaithful (code : Nat) : Bool := code ≠ 0 && code ≠ 2

/-- A special function of one element. A faithful FP32 result is one of the two neighbours, and which one is the device's
own, fixed function of the input (log 5); an overflow that the mode carries to infinity gives infinity (R231). -/
def sfnElem (f : Fmt) (code mode a : Nat) : Nat × Nat :=
  let r := sfnVal code (f.value a)
  let p := r.round f mode
  if f ≠ Fmt.f32 ∨ !sfnFaithful code ∨ p.2 % 2 = 0 ∨ p.1 % 2 ^ 31 = Fmt.f32.infEnc then p
  else ((r.round f (if Config.faithfulUp code (BitVec.ofNat 32 a) then 2 else 3)).1, p.2)

/-- A special function in every lane (R231). -/
def Iss.sfn (x : Iss) (code : Nat) : Act := x.putFlagsVar 1 (x.each1 (sfnElem x.fmt code x.mode))

/-! ## Meanings -/

/-- RCP (R231, R232). -/
def execRcp (e : Enc) (s : State) : Host.Outcome State Fault Refusal :=
  issue (.rcp e) e noStep3 (fun x => x.sfn 0) s

/-- RSQRT (R231, R232). -/
def execRsqrt (e : Enc) (s : State) : Host.Outcome State Fault Refusal :=
  issue (.rsqrt e) e noStep3 (fun x => x.sfn 1) s

/-- SQRT (R231, R232). -/
def execSqrt (e : Enc) (s : State) : Host.Outcome State Fault Refusal :=
  issue (.sqrt e) e noStep3 (fun x => x.sfn 2) s

/-- EXP2 (R231, R232). -/
def execExp2 (e : Enc) (s : State) : Host.Outcome State Fault Refusal :=
  issue (.exp2 e) e noStep3 (fun x => x.sfn 3) s

/-- LOG2 (R231, R232). -/
def execLog2 (e : Enc) (s : State) : Host.Outcome State Fault Refusal :=
  issue (.log2 e) e noStep3 (fun x => x.sfn 4) s

/-- SIN (R231, R232). -/
def execSin (e : Enc) (s : State) : Host.Outcome State Fault Refusal :=
  issue (.sin e) e noStep3 (fun x => x.sfn 5) s

/-- COS (R231, R232). -/
def execCos (e : Enc) (s : State) : Host.Outcome State Fault Refusal :=
  issue (.cos e) e noStep3 (fun x => x.sfn 6) s

/-- TANH (R231, R232). -/
def execTanh (e : Enc) (s : State) : Host.Outcome State Fault Refusal :=
  issue (.tanh e) e noStep3 (fun x => x.sfn 7) s

/-- SIGM (R231, R232). -/
def execSigm (e : Enc) (s : State) : Host.Outcome State Fault Refusal :=
  issue (.sigm e) e noStep3 (fun x => x.sfn 8) s

/-- GELU (R231, R232). -/
def execGelu (e : Enc) (s : State) : Host.Outcome State Fault Refusal :=
  issue (.gelu e) e noStep3 (fun x => x.sfn 9) s

/-- SILU (R231, R232). -/
def execSilu (e : Enc) (s : State) : Host.Outcome State Fault Refusal :=
  issue (.silu e) e noStep3 (fun x => x.sfn 10) s

/-- ERF (R231, R232). -/
def execErf (e : Enc) (s : State) : Host.Outcome State Fault Refusal :=
  issue (.erf e) e noStep3 (fun x => x.sfn 11) s

end Sys2Proof.Machine
end

