-- ==== Sys2Proof/Machine/Dispatch.lean ====
section
/-! DEFINITION. The dispatch: one arm for each row of the opcode table, a direct call of its meaning. -/

namespace Sys2Proof.Machine

/-- What an instruction, or a step of the device, does. -/
def exec (i : Instr) (s : State) : Host.Outcome State Fault Refusal :=
  match i with
  | .bra e => Sys2Proof.Machine.execBra e s
  | .brx e => Sys2Proof.Machine.execBrx e s
  | .call e => Sys2Proof.Machine.execCall e s
  | .calli e => Sys2Proof.Machine.execCalli e s
  | .ret e => Sys2Proof.Machine.execRet e s
  | .exit e => Sys2Proof.Machine.execExit e s
  | .yield e => Sys2Proof.Machine.execYield e s
  | .nop e => Sys2Proof.Machine.execNop e s
  | .nopEntry e => Sys2Proof.Machine.execNopEntry e s
  | .nap e => Sys2Proof.Machine.execNap e s
  | .sgw e => Sys2Proof.Machine.execSgw e s
  | .ipget e => Sys2Proof.Machine.execIpget e s
  | .mov e => Sys2Proof.Machine.execMov e s
  | .movl e => Sys2Proof.Machine.execMovl e s
  | .add e => Sys2Proof.Machine.execAdd e s
  | .sub e => Sys2Proof.Machine.execSub e s
  | .adds e => Sys2Proof.Machine.execAdds e s
  | .subs e => Sys2Proof.Machine.execSubs e s
  | .addc e => Sys2Proof.Machine.execAddc e s
  | .subb e => Sys2Proof.Machine.execSubb e s
  | .mul e => Sys2Proof.Machine.execMul e s
  | .mulhi e => Sys2Proof.Machine.execMulhi e s
  | .mad e => Sys2Proof.Machine.execMad e s
  | .madw e => Sys2Proof.Machine.execMadw e s
  | .div e => Sys2Proof.Machine.execDiv e s
  | .rem e => Sys2Proof.Machine.execRem e s
  | .min e => Sys2Proof.Machine.execMin e s
  | .max e => Sys2Proof.Machine.execMax e s
  | .abs e => Sys2Proof.Machine.execAbs e s
  | .neg e => Sys2Proof.Machine.execNeg e s
  | .and e => Sys2Proof.Machine.execAnd e s
  | .or e => Sys2Proof.Machine.execOr e s
  | .xor e => Sys2Proof.Machine.execXor e s
  | .andn e => Sys2Proof.Machine.execAndn e s
  | .not e => Sys2Proof.Machine.execNot e s
  | .shl e => Sys2Proof.Machine.execShl e s
  | .shr e => Sys2Proof.Machine.execShr e s
  | .sar e => Sys2Proof.Machine.execSar e s
  | .dsh e => Sys2Proof.Machine.execDsh e s
  | .rot e => Sys2Proof.Machine.execRot e s
  | .bfe e => Sys2Proof.Machine.execBfe e s
  | .bfi e => Sys2Proof.Machine.execBfi e s
  | .popc e => Sys2Proof.Machine.execPopc e s
  | .clz e => Sys2Proof.Machine.execClz e s
  | .ctz e => Sys2Proof.Machine.execCtz e s
  | .brev e => Sys2Proof.Machine.execBrev e s
  | .bsel e => Sys2Proof.Machine.execBsel e s
  | .sad e => Sys2Proof.Machine.execSad e s
  | .cmp e => Sys2Proof.Machine.execCmp e s
  | .csel e => Sys2Proof.Machine.execCsel e s
  | .pand e => Sys2Proof.Machine.execPand e s
  | .por e => Sys2Proof.Machine.execPor e s
  | .pxor e => Sys2Proof.Machine.execPxor e s
  | .pnot e => Sys2Proof.Machine.execPnot e s
  | .psetNe e => Sys2Proof.Machine.execPsetNe e s
  | .psetMask e => Sys2Proof.Machine.execPsetMask e s
  | .pget e => Sys2Proof.Machine.execPget e s
  | .voteAny e => Sys2Proof.Machine.execVoteAny e s
  | .voteAll e => Sys2Proof.Machine.execVoteAll e s
  | .voteBall e => Sys2Proof.Machine.execVoteBall e s
  | .voteEq e => Sys2Proof.Machine.execVoteEq e s
  | .shfl e => Sys2Proof.Machine.execShfl e s
  | .lred e => Sys2Proof.Machine.execLred e s
  | .lscan e => Sys2Proof.Machine.execLscan e s
  | .xmatch e => Sys2Proof.Machine.execXmatch e s
  | .elect e => Sys2Proof.Machine.execElect e s
  | .fadd e => Sys2Proof.Machine.execFadd e s
  | .fsub e => Sys2Proof.Machine.execFsub e s
  | .fmul e => Sys2Proof.Machine.execFmul e s
  | .ffma e => Sys2Proof.Machine.execFfma e s
  | .fmin e => Sys2Proof.Machine.execFmin e s
  | .fmax e => Sys2Proof.Machine.execFmax e s
  | .fminx e => Sys2Proof.Machine.execFminx e s
  | .fmaxx e => Sys2Proof.Machine.execFmaxx e s
  | .fcmp e => Sys2Proof.Machine.execFcmp e s
  | .fclamp e => Sys2Proof.Machine.execFclamp e s
  | .frnd e => Sys2Proof.Machine.execFrnd e s
  | .fscale e => Sys2Proof.Machine.execFscale e s
  | .fclass e => Sys2Proof.Machine.execFclass e s
  | .fdot2 e => Sys2Proof.Machine.execFdot2 e s
  | .fdot4 e => Sys2Proof.Machine.execFdot4 e s
  | .fdiv e => Sys2Proof.Machine.execFdiv e s
  | .rcp e => Sys2Proof.Machine.execRcp e s
  | .rsqrt e => Sys2Proof.Machine.execRsqrt e s
  | .sqrt e => Sys2Proof.Machine.execSqrt e s
  | .exp2 e => Sys2Proof.Machine.execExp2 e s
  | .log2 e => Sys2Proof.Machine.execLog2 e s
  | .sin e => Sys2Proof.Machine.execSin e s
  | .cos e => Sys2Proof.Machine.execCos e s
  | .tanh e => Sys2Proof.Machine.execTanh e s
  | .sigm e => Sys2Proof.Machine.execSigm e s
  | .gelu e => Sys2Proof.Machine.execGelu e s
  | .silu e => Sys2Proof.Machine.execSilu e s
  | .erf e => Sys2Proof.Machine.execErf e s
  | .cvt e => Sys2Proof.Machine.execCvt e s
  | .cvtSr e => Sys2Proof.Machine.execCvtSr e s
  | .mxq e => Sys2Proof.Machine.execMxq e s
  | .mxd e => Sys2Proof.Machine.execMxd e s
  | .rand e => Sys2Proof.Machine.execRand e s
  | .ld e => Sys2Proof.Machine.execLd e s
  | .st e => Sys2Proof.Machine.execSt e s
  | .ldu e => Sys2Proof.Machine.execLdu e s
  | .lds e => Sys2Proof.Machine.execLds e s
  | .sts e => Sys2Proof.Machine.execSts e s
  | .ldc e => Sys2Proof.Machine.execLdc e s
  | .stc e => Sys2Proof.Machine.execStc e s
  | .ldfe e => Sys2Proof.Machine.execLdfe e s
  | .stfe e => Sys2Proof.Machine.execStfe e s
  | .fsetEmpty e => Sys2Proof.Machine.execFsetEmpty e s
  | .fsetFull e => Sys2Proof.Machine.execFsetFull e s
  | .cbcfg e => Sys2Proof.Machine.execCbcfg e s
  | .cbtake e => Sys2Proof.Machine.execCbtake e s
  | .cbtakeFill e => Sys2Proof.Machine.execCbtakeFill e s
  | .cbgive e => Sys2Proof.Machine.execCbgive e s
  | .cbgiveFill e => Sys2Proof.Machine.execCbgiveFill e s
  | .pfL2 e => Sys2Proof.Machine.execPfL2 e s
  | .pfL1 e => Sys2Proof.Machine.execPfL1 e s
  | .cinv e => Sys2Proof.Machine.execCinv e s
  | .cinvAll e => Sys2Proof.Machine.execCinvAll e s
  | .cwb e => Sys2Proof.Machine.execCwb e s
  | .cwbAll e => Sys2Proof.Machine.execCwbAll e s
  | .atom e => Sys2Proof.Machine.execAtom e s
  | .atoms e => Sys2Proof.Machine.execAtoms e s
  | .red e => Sys2Proof.Machine.execRed e s
  | .reds e => Sys2Proof.Machine.execReds e s
  | .xadd e => Sys2Proof.Machine.execXadd e s
  | .fenceAcq e => Sys2Proof.Machine.execFenceAcq e s
  | .fenceRel e => Sys2Proof.Machine.execFenceRel e s
  | .fenceAr e => Sys2Proof.Machine.execFenceAr e s
  | .qfence e => Sys2Proof.Machine.execQfence e s
  | .bar e => Sys2Proof.Machine.execBar e s
  | .bara e => Sys2Proof.Machine.execBara e s
  | .barw e => Sys2Proof.Machine.execBarw e s
  | .cbar e => Sys2Proof.Machine.execCbar e s
  | .fbar e => Sys2Proof.Machine.execFbar e s
  | .waddr e => Sys2Proof.Machine.execWaddr e s
  | .fgive e => Sys2Proof.Machine.execFgive e s
  | .fclaimSync e => Sys2Proof.Machine.execFclaimSync e s
  | .fclaimSet e => Sys2Proof.Machine.execFclaimSet e s
  | .fwin e => Sys2Proof.Machine.execFwin e s
  | .mma e => Sys2Proof.Machine.execMma e s
  | .lease e => Sys2Proof.Machine.execLease e s
  | .unlease e => Sys2Proof.Machine.execUnlease e s
  | .azero e => Sys2Proof.Machine.execAzero e s
  | .adrain e => Sys2Proof.Machine.execAdrain e s
  | .aswap e => Sys2Proof.Machine.execAswap e s
  | .ald e => Sys2Proof.Machine.execAld e s
  | .ast e => Sys2Proof.Machine.execAst e s
  | .aflag e => Sys2Proof.Machine.execAflag e s
  | .tld e => Sys2Proof.Machine.execTld e s
  | .tst e => Sys2Proof.Machine.execTst e s
  | .tcvt e => Sys2Proof.Machine.execTcvt e s
  | .bld e => Sys2Proof.Machine.execBld e s
  | .bldBc e => Sys2Proof.Machine.execBldBc e s
  | .cp e => Sys2Proof.Machine.execCp e s
  | .cpg e => Sys2Proof.Machine.execCpg e s
  | .cps e => Sys2Proof.Machine.execCps e s
  | .cp2d e => Sys2Proof.Machine.execCp2d e s
  | .cpcb e => Sys2Proof.Machine.execCpcb e s
  | .cpw e => Sys2Proof.Machine.execCpw e s
  | .bwst e => Sys2Proof.Machine.execBwst e s
  | .bwld e => Sys2Proof.Machine.execBwld e s
  | .bwbar e => Sys2Proof.Machine.execBwbar e s
  | .bwslot e => Sys2Proof.Machine.execBwslot e s
  | .bwslotN e => Sys2Proof.Machine.execBwslotN e s
  | .am e => Sys2Proof.Machine.execAm e s
  | .put e => Sys2Proof.Machine.execPut e s
  | .putsig e => Sys2Proof.Machine.execPutsig e s
  | .get e => Sys2Proof.Machine.execGet e s
  | .app e => Sys2Proof.Machine.execApp e s
  | .coll e => Sys2Proof.Machine.execColl e s
  | .collw e => Sys2Proof.Machine.execCollw e s
  | .collwTest e => Sys2Proof.Machine.execCollwTest e s
  | .sigw e => Sys2Proof.Machine.execSigw e s
  | .tspawn e => Sys2Proof.Machine.execTspawn e s
  | .tcommit e => Sys2Proof.Machine.execTcommit e s
  | .nemit e => Sys2Proof.Machine.execNemit e s
  | .rdr e => Sys2Proof.Machine.execRdr e s
  | .trap e => Sys2Proof.Machine.execTrap e s
  | .rttResume e => Sys2Proof.Machine.execRttResume e s
  | .rttRetry e => Sys2Proof.Machine.execRttRetry e s
  | .rttEnd e => Sys2Proof.Machine.execRttEnd e s
  | .srd e => Sys2Proof.Machine.execSrd e s
  | .swr e => Sys2Proof.Machine.execSwr e s
  | .bkpt e => Sys2Proof.Machine.execBkpt e s
  | .fwcallEcho e => Sys2Proof.Machine.execFwcallEcho e s
  | .fwcallFeatureVector e => Sys2Proof.Machine.execFwcallFeatureVector e s
  | .fwcallLog e => Sys2Proof.Machine.execFwcallLog e s
  | .fwcallNoService e => Sys2Proof.Machine.execFwcallNoService e s
  | .halt e => Sys2Proof.Machine.execHalt e s
  | .illegalInstruction w => Sys2Proof.Machine.execIllegalInstruction w s
  | .fetchOutsideCode => Sys2Proof.Machine.execFetchOutsideCode s
  | .resultWriteback r => Sys2Proof.Machine.execResultWriteback r s
  | .napExpiry f => Sys2Proof.Machine.execNapExpiry f s
  | .waddrTimeout f => Sys2Proof.Machine.execWaddrTimeout f s
  | .trapEntry f => Sys2Proof.Machine.execTrapEntry f s
  | .loadResponse op => Sys2Proof.Machine.execLoadResponse op s
  | .requestDispatch r => Sys2Proof.Machine.execRequestDispatch r s
  | .homeSliceRequest r => Sys2Proof.Machine.execHomeSliceRequest r s
  | .zunosPacket p => Sys2Proof.Machine.execZunosPacket p s
  | .putsigSignal op => Sys2Proof.Machine.execPutsigSignal op s
  | .appRowStore op => Sys2Proof.Machine.execAppRowStore op s
  | .remoteTimeout r => Sys2Proof.Machine.execRemoteTimeout r s
  | .matrixOperation team => Sys2Proof.Machine.execMatrixOperation team s
  | .leaseGrant core => Sys2Proof.Machine.execLeaseGrant core s
  | .muleCopy team => Sys2Proof.Machine.execMuleCopy team s
  | .bsliceOperation team => Sys2Proof.Machine.execBsliceOperation team s
  | .msgOperation team => Sys2Proof.Machine.execMsgOperation team s
  | .bellwetherBeat tower entry => Sys2Proof.Machine.execBellwetherBeat tower entry s
  | .beatCrcError tower => Sys2Proof.Machine.execBeatCrcError tower s
  | .bellwetherChannelTest tower failed => Sys2Proof.Machine.execBellwetherChannelTest tower failed s
  | .layerSleep die => Sys2Proof.Machine.execLayerSleep die s
  | .layerWake die => Sys2Proof.Machine.execLayerWake die s
  | .collectiveStart team => Sys2Proof.Machine.execCollectiveStart team s
  | .collectivePacket p => Sys2Proof.Machine.execCollectivePacket p s
  | .collectiveReturn p => Sys2Proof.Machine.execCollectiveReturn p s
  | .collectiveComplete m => Sys2Proof.Machine.execCollectiveComplete m s
  | .collectiveTimeout m => Sys2Proof.Machine.execCollectiveTimeout m s
  | .combinationTimeout c => Sys2Proof.Machine.execCombinationTimeout c s
  | .amDelivery m => Sys2Proof.Machine.execAmDelivery m s
  | .henDeposit tower => Sys2Proof.Machine.execHenDeposit tower s
  | .henFlush tower launch => Sys2Proof.Machine.execHenFlush tower launch s
  | .nodeRecord launch => Sys2Proof.Machine.execNodeRecord launch s
  | .gatherTimerLapse launch => Sys2Proof.Machine.execGatherTimerLapse launch s
  | .taskStart entry => Sys2Proof.Machine.execTaskStart entry s
  | .taskCommit team => Sys2Proof.Machine.execTaskCommit team s
  | .teamDescend q => Sys2Proof.Machine.execTeamDescend q s
  | .teamAdmission q => Sys2Proof.Machine.execTeamAdmission q s
  | .teamSteal q core => Sys2Proof.Machine.execTeamSteal q core s
  | .teamEnd team => Sys2Proof.Machine.execTeamEnd team s
  | .launchComplete l => Sys2Proof.Machine.execLaunchComplete l s
  | .watchdogExpiry l => Sys2Proof.Machine.execWatchdogExpiry l s
  | .kick q => Sys2Proof.Machine.execKick q s
  | .launch q => Sys2Proof.Machine.execLaunch q s
  | .barrier q => Sys2Proof.Machine.execBarrier q s
  | .signal q => Sys2Proof.Machine.execSignal q s
  | .wait q => Sys2Proof.Machine.execWait q s
  | .waitRecheck q => Sys2Proof.Machine.execWaitRecheck q s
  | .close q => Sys2Proof.Machine.execClose q s
  | .idleTimeout q => Sys2Proof.Machine.execIdleTimeout q s
  | .qcbSaveComplete q => Sys2Proof.Machine.execQcbSaveComplete q s
  | .eprioAgeing q => Sys2Proof.Machine.execEprioAgeing q s
  | .admissionWaitPreempt l => Sys2Proof.Machine.execAdmissionWaitPreempt l s
  | .preemptionStop l => Sys2Proof.Machine.execPreemptionStop l s
  | .restore l => Sys2Proof.Machine.execRestore l s
  | .clusterStageRelease die => Sys2Proof.Machine.execClusterStageRelease die s
  | .packageReset => Sys2Proof.Machine.execPackageReset s
  | .coolantFlow flows => Sys2Proof.Machine.execCoolantFlow flows s
  | .thermalThrottle tower => Sys2Proof.Machine.execThermalThrottle tower s
  | .thermalStop tower temp => Sys2Proof.Machine.execThermalStop tower temp s
  | .noiseSourceOffline core => Sys2Proof.Machine.execNoiseSourceOffline core s
  | .attest => Sys2Proof.Machine.execAttest s
  | .accept => Sys2Proof.Machine.execAccept s
  | .pair => Sys2Proof.Machine.execPair s
  | .register => Sys2Proof.Machine.execRegister s
  | .unregister => Sys2Proof.Machine.execUnregister s
  | .plimit => Sys2Proof.Machine.execPlimit s
  | .preempt => Sys2Proof.Machine.execPreempt s
  | .inval => Sys2Proof.Machine.execInval s
  | .aperture => Sys2Proof.Machine.execAperture s
  | .update => Sys2Proof.Machine.execUpdate s
  | .retire => Sys2Proof.Machine.execRetire s
  | .mailboxUnknownCommand core => Sys2Proof.Machine.execMailboxUnknownCommand core s
  | .hostWindowWrite off w => Sys2Proof.Machine.execHostWindowWrite off w s
  | .sliceRemapDrained => Sys2Proof.Machine.execSliceRemapDrained s
  | .inServiceChangeStart => Sys2Proof.Machine.execInServiceChangeStart s
  | .pciePostedWrite off data relaxed => Sys2Proof.Machine.execPciePostedWrite off data relaxed s
  | .pcieRead off len => Sys2Proof.Machine.execPcieRead off len s
  | .appCoreAccess a => Sys2Proof.Machine.execAppCoreAccess a s
  | .loopFlitError tower loop => Sys2Proof.Machine.execLoopFlitError tower loop s
  | .loopFail tower loop => Sys2Proof.Machine.execLoopFail tower loop s
  | .bridgeCrcError t u => Sys2Proof.Machine.execBridgeCrcError t u s
  | .bridgeRetrain t u lanes => Sys2Proof.Machine.execBridgeRetrain t u lanes s
  | .zunosCrcError port => Sys2Proof.Machine.execZunosCrcError port s
  | .portRetrain port lanes => Sys2Proof.Machine.execPortRetrain port lanes s
  | .portDead port => Sys2Proof.Machine.execPortDead port s
  | .correctedError u => Sys2Proof.Machine.execCorrectedError u s
  | .patrolScrub u found => Sys2Proof.Machine.execPatrolScrub u found s
  | .uncorrectableError u f lanes => Sys2Proof.Machine.execUncorrectableError u f lanes s
  | .heartbeat => Sys2Proof.Machine.execHeartbeat s
  | .heartbeatTimeout => Sys2Proof.Machine.execHeartbeatTimeout s
  | .core0Failure => Sys2Proof.Machine.execCore0Failure s
  | .standbyTakeover => Sys2Proof.Machine.execStandbyTakeover s
  | .thermalThrottleEnd tower => Sys2Proof.Machine.execThermalThrottleEnd tower s

end Sys2Proof.Machine
end

