-- ==== Sys2Proof/Machine/Issue.lean ====
section
/-! DEFINITION. The issue stage of a core: the choice of a slot (R41, R42), switch points (R47, R48), the paths of an
issue step (R52, R53), fetch (R168, R419, R435) and the joint trap of two paths (R411). -/

namespace Sys2Proof.Machine

/-- Runs a function on a next state. -/
def onNext (o : Host.Outcome State Fault Refusal) (g : State → Host.Outcome State Fault Refusal) :
    Host.Outcome State Fault Refusal :=
  match o with
  | .next s => g s
  | .fault f => .fault f
  | .refused r => .refused r

/-! ## Slots (R41) -/

/-- The slots of a core in the order in which they are asked. -/
def Core.slotOrder (c : Core) : List Nat := (List.range 16).map fun k => (c.rr + 1 + k) % 16

/-- Whether a fibre can issue in this cycle: Current, with a ready lane, its stall count spent, no trap found, in a team
that is not being stopped, of a launch that has not ended (R42, R43, R355, R412). -/
def State.canIssue (s : State) (f : Fibre) : Bool :=
  match s.team? f.team with
  | none => false
  | some t => match s.launch? t.launch with
    | none => false
    | some l =>
      decide (f.run = .current) && decide (f.pending = none) && decide (f.notBefore ≤ s.now) &&
        decide (f.ready ≠ 0) && !t.stopped && decide (l.outcome = none)

/-- Whether a core may issue in this cycle: one issue step each cycle (R41), none in a stopped tower (R31), and in a
throttled tower only when the idle cycles that the power core inserts leave this one free (R30). -/
def State.coreAwake (s : State) (core : Nat) : Bool :=
  let tw := s.tower (towerOf core)
  decide ((s.core core).lastIssue ≠ some s.now) && !tw.stopped && (!tw.idle || decide (s.pick 30 % 2 = 1))

/-- The fibre that the issue stage chooses. -/
def State.chosen (s : State) (core : Nat) : Option Fibre :=
  if !s.coreAwake core then none
  else (s.core core).slotOrder.findSome? fun slot =>
    match (s.core core).currentOf slot with
    | none => none
    | some fid => match s.fibre? fid with
      | some f => if s.canIssue f then some f else none
      | none => none

/-! ## Paths (R52, R53) -/

/-- The ready lanes of a fibre that hold an IP. -/
def Fibre.lanesAt (f : Fibre) (ip : Nat) : Mask := maskWhere fun L => f.ready.getLsbD L && decide ((f.ip L).toNat = ip)

/-- The IPs of the ready lanes, each once. -/
def Fibre.readyIps (f : Fibre) : List Nat := ((lanesOf f.ready).map fun L => (f.ip L).toNat).eraseDups

/-- Path A: the lowest IP of a ready lane. -/
def Fibre.pathA (f : Fibre) : Nat := minOf f.readyIps

/-- Puts an IP into a list ordered by falling count of lanes, then rising IP. -/
def insertPath (f : Fibre) (ip : Nat) : List Nat → List Nat
  | [] => [ip]
  | q :: qs =>
    let a := popCount 32 (f.lanesAt ip).toNat
    let b := popCount 32 (f.lanesAt q).toNat
    if b < a ∨ (a = b ∧ ip < q) then ip :: q :: qs else q :: insertPath f ip qs

/-- The other IPs in the order in which path B prefers them. -/
def Fibre.pathsB (f : Fibre) (a : Nat) : List Nat := (f.readyIps.filter fun ip => ip != a).foldr (insertPath f) []

/-- Whether two words can co-issue (R53). -/
def coIssue (wa wb : BitVec 160) : Bool :=
  !pathAOnly (opOf wa) && !pathAOnly (opOf wb) && !(isMemory (opOf wa) && isMemory (opOf wb)) &&
    !((decodeWord wa).isUniform && (decodeWord wb).isUniform)

/-- The SW bit of a word (R47). -/
def swOf (w : BitVec 160) : Bool := w.getLsbD 31

/-- What path B is: none, an IP whose word is at hand, or one whose fetch fails. -/
inductive PathB where
  | none
  | word (ip : Nat)
  | fetch (ip : Nat) (r : Fetch)
deriving DecidableEq, Repr

/-- The first IP that can co-issue with the word of path A (R52). -/
def State.pathB (s : State) (core : Nat) (l : Launch) (k : Kernel) (wa : BitVec 160) : List Nat → PathB × State
  | [] => (.none, s)
  | ip :: rest =>
    if !k.inRange ip then s.pathB core l k wa rest
    else
      match s.fetch core l ip with
      | (.ok, s') =>
        let l' := (s'.launch? l.id).getD l
        if coIssue wa (l'.wordAt ip) then (.word ip, s') else s'.pathB core l' k wa rest
      | (r, s') => (.fetch ip r, s')

/-! ## The issue step -/

/-- The instruction of a path goes through its meaning, with the cursor on it. -/
def State.runPath (s : State) (f : Fibre) (ip : Nat) (i : Instr) : Host.Outcome State Fault Refusal :=
  exec i { s with cursor := some { fid := f.id, ip := BitVec.ofNat 32 ip, mask := f.lanesAt ip } }

/-- The trap that a fibre has just met. -/
def State.trapOf (s : State) (fid : Nat) : Option TrapInfo := (s.fibre? fid).bind Fibre.pending

/-- A failed fetch of an IP as a trap of the ready lanes there. -/
def Fibre.fetchTrap (f : Fibre) (ip c d : Nat) : TrapInfo :=
  ⟨BitVec.ofNat 8 c, 0, BitVec.ofNat 16 d, f.lanesAt ip, BitVec.ofNat 32 ip, 0⟩

/-- After path A: a trap of path A that is found at issue stands alone; otherwise path B performs, and a trap of path B
that is found at issue undoes both. A trap found after issue leaves the other path performed (R411), and so does a load
that is held on a missing page (R435). -/
def State.thenB (s0 s1 : State) (core : Nat) (f : Fibre) (l : Launch) (b : PathB) : Host.Outcome State Fault Refusal :=
  let done := fun s : State => Host.Outcome.next { s with cursor := none }
  let stamped := decide ((s1.core core).lastIssue = some s1.now)
  let held := decide (((s1.fibre? f.id).map Fibre.run) = some .held)
  let ta := s1.trapOf f.id
  let early := (ta.map fun t => !t.late).getD false
  if early || !(stamped || held) then done s1
  else
    match b with
    | .none => done s1
    | .fetch ip (.bad c d) => done (s1.raise f.id (f.fetchTrap ip c d))
    | .fetch _ _ => done s1
    | .word ip =>
      let w := ((s1.launch? l.id).getD l).wordAt ip
      onNext (s1.runPath f ip (decodeWord w)) fun s2 =>
        match s2.trapOf f.id with
        | none => done s2
        | some t =>
          if ta.isSome then
            -- path A keeps its trap, unless path B's was found at issue; path B may have performed
            (match (State.runPath (s1.modFibre f.id fun f => { f with pending := none }) f ip (decodeWord w)) with
             | .next s3 => match s3.trapOf f.id with
               | some u => if u.late then done s2 else done (s0.raise f.id u)
               | none => done (s2.leave f.id .trapping .none)
             | _ => done s2)
          else if t.late then done s2 else done (s0.raise f.id t)

/-- Both paths of an issue step. -/
def State.issuePaths (s : State) (core : Nat) (f : Fibre) (l : Launch) (a : Nat) (wa : BitVec 160) (b : PathB) :
    Host.Outcome State Fault Refusal :=
  onNext (s.runPath f a (decodeWord wa)) fun s1 => s.thenB s1 core f l b

/-- A switch point before the step (R47, R48): the fibre parks, or yields its slot after 256 cycles, or goes on. -/
inductive Switch where
  | leave (s : State)
  | go (s : State)

/-- The test of a switch point. -/
def State.switchTest (s : State) (f : Fibre) (t : Team) (marked : Bool) : Switch :=
  if !marked then .go s
  else if s.outstanding f.id then .leave (s.leave f.id .parked .results)
  else if 256 ≤ s.now - f.since ∧ (s.nextReady f t.perSlot).isSome then .leave (s.yieldSlot f t)
  else .go (s.modFibre f.id fun f => f.switchPoint t.perSlot)

/-- The step of a chosen fibre. -/
def State.issueFibre (s : State) (core : Nat) (f : Fibre) (t : Team) (l : Launch) : Host.Outcome State Fault Refusal :=
  let a := f.pathA
  let k := l.kernelAt t.kernel
  if !k.inRange a then
    onNext (s.runPath f a .fetchOutsideCode) fun s => .next { s with cursor := none }
  else
    match s.fetch core l a with
    | (.held m, s) => .next (s.holdOn f.id core l.ctx [m])
    | (.bad c d, s) => .next (s.raise f.id (f.fetchTrap a c d))
    | (.ok, s) =>
      let l := (s.launch? l.id).getD l
      let wa := l.wordAt a
      let (b, s) := if pathAOnly (opOf wa) then (PathB.none, s) else s.pathB core l k wa (f.pathsB a)
      match b with
      | .fetch _ (.held m) => .next (s.holdOn f.id core l.ctx [m])
      | _ =>
        let l := (s.launch? l.id).getD l
        let marked := swOf wa || (match b with
          | .word ip => swOf (l.wordAt ip)
          | _ => false)
        match s.switchTest f t marked with
        | .leave s => .next s
        | .go s => s.issuePaths core f l a wa b

/-- One issue step of a core (R41). -/
def State.issueStep (s : State) (core : Nat) : Host.Outcome State Fault Refusal :=
  match s.chosen core with
  | none => .next s
  | some f => match s.team? f.team with
    | none => .next s
    | some t => match s.launch? t.launch with
      | none => .next s
      | some l => s.issueFibre core f t l

end Sys2Proof.Machine
end

