-- ==== Sys2Proof/Machine/Events.lean ====
section
/-! DEFINITION. The moves that a state permits: the steps of the device that are due, and the issue steps (R41). What comes from outside
the package stands in the inbox instead. -/

namespace Sys2Proof.Machine

/-- A step of the device for each record of a table that passes a test. -/
def movesOf {α : Type} (xs : List α) (due : α → Bool) (i : α → Instr) : List Move := (xs.filter due).map fun x => .event (i x)

/-- The issue steps that are open in this cycle. -/
def State.issueMoves (s : State) : List Move :=
  (s.cores.filter fun c => (s.chosen c.id).isSome).map fun c => .issue c.id

/-- Fibres: results, traps, naps and timeouts (R46, R137, R202, R412). -/
def State.fibreMoves (s : State) : List Move :=
  movesOf s.results (fun r => r.known || (s.calls.head?.any fun c => c.id == r.id)) (fun r => .resultWriteback r.id) ++
    movesOf s.fibres (fun f => (s.napLapsed f.id).isSome) (fun f => .napExpiry f.id) ++
    movesOf s.fibres (fun f => (s.waddrLapsed f.id).isSome) (fun f => .waddrTimeout f.id) ++
    movesOf s.fibres s.trapReady (fun f => .trapEntry f.id)

/-- Requests: they leave their core, perform, are answered or time out (R115, R131, R250, R471). -/
def State.requestMoves (s : State) : List Move :=
  movesOf s.reqs s.canDispatch (fun r => .requestDispatch r.id) ++
    movesOf s.reqs (fun r => decide (r.state = .sent)) (fun r => .homeSliceRequest r.id) ++
    movesOf s.ops (fun o => o.performed && o.result.isSome) (fun o => .loadResponse o.id) ++
    movesOf s.reqs (fun r => decide (r.state = .done) && (s.ownerOp r).any fun o => o.result.isSome && !o.performed)
      (fun r => .loadResponse r.id) ++
    movesOf s.reqs s.timedOut (fun r => .remoteTimeout r.id)

/-- Whether the head of a queue has something to do by itself. -/
def State.engMoves (s : State) (t : Team) (q : Nat) : Bool :=
  match s.engHead t q with
  | none => false
  | some o => match q with
    | 1 => !o.lacksSlot t
    | 2 => true
    | 3 => !(o.kind = .bldBc && (o.beatReady || decide (o.beats ≤ o.pos)))
    | 5 =>
      !(o.kind = .putsig && decide (o.pos = 1)) &&
        !(o.kind = .app && decide (1 ≤ o.pos) && (decide (o.pos ≤ o.appLanes.length) || s.sideLog.any fun e => decide (e.owner = some o.id)))
    | 6 => match s.memberOf o.id with
      | some m => decide (o.pos = 0) || (!m.complete && decide (o.pos ≤ m.chunks) && decide (o.pos ≤ m.low + 17))
      | none => decide (o.pos = 0)
    | _ => false

/-- The msg operation of a team that a step of its own carries on. -/
def State.msgHead (s : State) (t : Team) (p : EngOp → Bool) : Bool := (s.engHead t 5).any p

/-- Engines: the heads of the queues, signals, rows and leases (R163, R291, R294, R353, R364, R368). -/
def State.engineMoves (s : State) : List Move :=
  let head := fun t : Team => ((t.queue 5).head?.map EngOp.id).getD 0
  movesOf s.teams (fun t => s.engMoves t 1) (fun t => .muleCopy t.id) ++
    movesOf s.teams (fun t => s.engMoves t 2) (fun t => .matrixOperation t.id) ++
    movesOf s.teams (fun t => s.engMoves t 3) (fun t => .bsliceOperation t.id) ++
    movesOf s.teams (fun t => s.engMoves t 5) (fun t => .msgOperation t.id) ++
    movesOf s.teams (fun t => s.engMoves t 6) (fun t => .collectiveStart t.id) ++
    movesOf s.teams (fun t => s.msgHead t fun o => o.kind = .putsig && decide (o.pos = 1)) (fun t => .putsigSignal (head t)) ++
    movesOf s.teams (fun t => s.msgHead t fun o => o.kind = .app && decide (1 ≤ o.pos) && decide (o.pos ≤ o.appLanes.length))
      (fun t => .appRowStore (head t)) ++
    movesOf s.cores (fun c => (s.leaseNext c.id).isSome) (fun c => .leaseGrant c.id)

/-- Whether a team waits to be placed on a sleeping layer. -/
def State.wantsLayer (s : State) (d : Nat) : Bool :=
  (s.layer d).asleep && s.qteams.any fun q => (q.at?.map dieOf) == some d

/-- Towers: beats, channel tests, sleep and wake (R33, R159, R161, R473), Hens (R69), fault stages (R432) and changes (R138, R408). -/
def State.towerMoves (s : State) : List Move :=
  let beats := s.towers.flatMap fun y => (s.entriesNow y.id).map fun e => Move.event (.bellwetherBeat y.id e)
  let flushes := s.towers.flatMap fun y => movesOf s.launches (s.flushable y.id) fun l => .henFlush y.id l.id
  beats ++ flushes ++
    movesOf s.towers (fun y => (s.failedBeat y.id).isSome) (fun y => .bellwetherChannelTest y.id (BitVec.ofNat 8 (s.pick 58720256))) ++
    movesOf s.towers (fun y => decide (y.deposits ≠ [])) (fun y => .henDeposit y.id) ++
    movesOf [()] (fun _ => (List.range 4).any s.sliceDrained) (fun _ => .sliceRemapDrained) ++
    movesOf [()] (fun _ => (List.range 4).any s.changeMoves) (fun _ => .inServiceChangeStart) ++
    movesOf (List.range 24) s.wantsLayer (fun d => .layerWake d) ++
    movesOf (List.range 24) (fun d => !(s.layer d).asleep && !s.wantsLayer d && s.serves 6 && (s.teams.all fun t => dieOf t.core != d) &&
      (s.qteams.all fun q => (q.at?.map dieOf) != some d)) (fun d => .layerSleep d) ++
    movesOf (List.range 24) s.stageDue (fun d => .clusterStageRelease d)

/-- Collectives and messages (R307, R371, R373, R375, R474, R475). -/
def State.wireMoves (s : State) : List Move :=
  movesOf s.packets (fun p => !p.ret && decide (p.arrived = 0)) (fun p => .collectivePacket p.id) ++
    movesOf s.packets CollPacket.ret (fun p => .collectiveReturn p.id) ++
    movesOf s.members Member.complete (fun m => .collectiveComplete m.id) ++
    movesOf s.members s.memberLate (fun m => .collectiveTimeout m.id) ++
    movesOf (s.records.map CollRecord.id ++ s.packets.map CollPacket.id) s.combinationOld (fun c => .combinationTimeout c) ++
    movesOf s.msgs s.deliverable (fun m => .amDelivery m.id)

/-- Teams and tasks (R37, R54, R63, R346, R351, R352). -/
def State.teamMoves (s : State) : List Move :=
  let steals := s.qteams.flatMap fun q => movesOf (List.range 2304) (s.canSteal q) fun c => .teamSteal q.id c
  movesOf s.launches s.drawable (fun l => .teamDescend l.id) ++
    movesOf s.qteams s.descendsNow (fun q => .teamDescend q.id) ++
    movesOf s.qteams s.admissible (fun q => .teamAdmission q.id) ++ steals ++
    movesOf s.teams s.teamOver (fun t => .teamEnd t.id) ++ movesOf s.qteams s.awayOver (fun q => .teamEnd q.id) ++
    movesOf s.tasks s.taskStarts (fun t => .taskStart t.entry) ++
    movesOf s.teams s.commits (fun t => .taskCommit t.id)

/-- Launches: batches, completion, the watchdog, pre-emption and restore (R344, R348, R354, R355, R450). -/
def State.launchMoves (s : State) : List Move :=
  movesOf s.launches s.recordDue (fun l => .nodeRecord l.id) ++
    movesOf s.launches s.timerDue (fun l => .gatherTimerLapse l.id) ++
    movesOf s.launches (fun l => (s.completion l).isSome) (fun l => .launchComplete l.id) ++
    movesOf s.launches s.watchdogDue (fun l => .watchdogExpiry l.id) ++
    movesOf s.launches s.waitsLong (fun l => .admissionWaitPreempt l.id) ++
    movesOf s.launches s.stopMoves (fun l => .preemptionStop l.id) ++
    movesOf s.launches s.restorable (fun l => .restore l.id)

/-- The step of a command type for a queue. -/
def commandInstr (type q : Nat) : Instr :=
  match type with
  | 2 => .barrier q
  | 3 => .signal q
  | 4 => .wait q
  | 5 => .close q
  | _ => .launch q

/-- User queues (R331 to R337). -/
def State.queueMoves (s : State) : List Move :=
  let front := match s.frontQueue with
    | some q => [Move.event (commandInstr (s.commandStep q) q.id)]
    | none => []
  front ++ movesOf s.queues s.kickNext (fun q => .kick q.id) ++
    movesOf s.queues s.idleDue (fun q => .idleTimeout q.id) ++
    movesOf s.queues s.saveReady (fun q => .qcbSaveComplete q.id) ++
    movesOf s.queues s.ageingDue (fun q => .eprioAgeing q.id) ++
    movesOf s.queues s.recheckDue (fun q => .waitRecheck q.id)

/-- The step that serves the request of a mailbox. -/
def mailInstr (n code : Nat) : Instr :=
  match n, code with
  | 0, 1 => .attest
  | 1, 1 => .accept
  | 1, 3 => .pair
  | 2, 1 => .register
  | 2, 2 => .unregister
  | 2, 3 => .plimit
  | 2, 4 => .preempt
  | 3, 1 => .inval
  | 3, 2 => .aperture
  | 7, 1 => .update
  | 7, 2 => .retire
  | _, _ => .mailboxUnknownCommand n

/-- Firmware: boot, mailboxes and heartbeats (R398, R403, R477). -/
def State.firmwareMoves (s : State) : List Move :=
  let boot := if s.pkg.boot = .rom then [Move.event .packageReset] else []
  boot ++ movesOf (List.range 8) s.mailDue (fun n => mailInstr n (s.asking n).code) ++
    movesOf [()] (fun _ => (firstCore s.beatDue).isSome) (fun _ => .heartbeat) ++
    movesOf [()] (fun _ => (firstCore s.beatLost).isSome) (fun _ => .heartbeatTimeout)

/-- The steps of the device that are due. -/
def State.eventMoves (s : State) : List Move :=
  s.fibreMoves ++ s.requestMoves ++ s.engineMoves ++ s.towerMoves ++ s.wireMoves ++ s.teamMoves ++ s.launchMoves ++ s.queueMoves ++ s.firmwareMoves

end Sys2Proof.Machine
end

