-- ==== Sys2Proof/Machine/Step.lean ====
section
/-! DEFINITION. The step of the package: a move that is forced, an event from outside, one of the moves that are open,
or the passing of a cycle (log 1); and a word placed to be fetched next (log 14). -/

namespace Sys2Proof.Machine

/-- Performs a move. -/
def State.perform (s : State) : Move → Host.Outcome State Fault Refusal
  | .event i => exec i s
  | .issue core => s.issueStep core

/-- The beats transmitted in a cycle are applied in the next, on every awake layer and in the shadow of each tower (R159). -/
def State.applyBeats (s : State) : State := s.towers.foldl (fun s y => s.applyHeld y.id 1025) s

/-- A cycle passes: posted writes with Relaxed Ordering perform before it ends (R402). -/
def State.passCycle (s : State) : State := { s.performPosted with now := s.now + 1 }.applyBeats

/-- Whether a fibre has to become Ready in this cycle: its nap or its `waddr` limit is over (R202, R265). -/
def State.wakesNow (s : State) : Bool := s.fibres.any fun f => (s.napLapsed f.id).isSome || (s.waddrLapsed f.id).isSome

/-- Takes one of the moves that are open, by the device's free choice; a cycle passes only when no core can issue in it
(R41) and no fibre has to become Ready in it. -/
def State.anyMove (s : State) : Host.Outcome State Fault Refusal :=
  let issues := s.issueMoves
  let moves := s.eventMoves ++ issues
  let n := moves.length + (if issues = [] ∧ !s.wakesNow then 1 else 0)
  match moves[if n = 1 then 0 else s.pick 0 % n]? with
  | some m => s.perform m
  | none => .next s.passCycle

/-- One step of the package. -/
def step (s : State) : Host.Outcome State Fault Refusal :=
  let s := { s with tick := s.tick + 1 }
  match s.turn with
  | some m => State.perform { s with turn := none } m
  | none =>
    match s.inbox with
    | i :: rest => exec i { s with inbox := rest }
    | [] => s.anyMove

/-! ## A word placed to be fetched -/

/-- The kernel of the placed word: one group, one fibre of the widest window and allotment, 64 KiB of scratchpad,
a lease with every accumulator, one word of code (R341). -/
def Kernel.probe : Kernel :=
  { Kernel.blank with
    count := 1,
    desc := BitVec.ofNat 288 (1 + 2 ^ 6 + 2 * 2 ^ 9 + 128 * 2 ^ 21 + 16 * 2 ^ 32 + 256 * 2 ^ 41 + 16 * 2 ^ 50
      + (256 * 2 ^ 16 + 2 ^ 31) * 2 ^ 64) }

/-- The page that holds the placed word, virtual and physical. -/
def probePage : Nat := 0x10000

/-- The leaf that maps it: valid, readable, writable, executable, open to atomics, 4 KiB interleave (R126, R129). -/
def probeLeaf : TlbEntry := { ctx := 0, level := 0, page := 1, leaf := BitVec.ofNat 64 (probePage + 0x3D) }

/-- A word stored where the next step fetches: a launch, a team and a fibre of core 0 with 32 lanes at IP 0, its code
page in the core's translation cache, its bytes in memory, and the issue step of core 0 as the next move (log 14). -/
def State.withFetchWord (s : State) (nbits w : Nat) : State :=
  let l := s.nextId
  let t := s.nextId + 1
  let f := s.nextId + 2
  let launch : Launch := { Launch.start l 0 0 0 0 s.now [] with kernels := [(0, Kernel.probe)], codeBase := probePage, nTeams := 1, nextTeam := 1 }
  let team : Team := { Team.start t l 0 0 s.now with coreSlots := [0], scratch := 65536, nacc := 16 }
  let fibre : Fibre := { Fibre.start f t 0 0 0 0xFFFFFFFF 0 256 128 s.now with run := .current }
  let core : Core := { Core.reset 0 with tlb := [probeLeaf], current := [(0, f + 1)] }
  let s := { s with
    nextId := s.nextId + 3, turn := some (.issue 0), launches := launch :: s.launches, teams := team :: s.teams,
    fibres := fibre :: s.fibres, cores := core :: s.cores.filter fun c => c.id != 0,
    mem := Memory.writeN s.mem (placeOf 0 0 probePage).key 20 (w % 2 ^ nbits) }
  s.modTower 0 fun x => { x with stopped := false, idle := false }

end Sys2Proof.Machine
end

