-- ==== Sys2Proof/Safety.lean ====
section
/-! DEFINITION. The terms that claims use: what a safe run is, when an instruction runs, what it may leave changed, and
what its destination registers hold. -/

namespace Sys2Proof.Machine

/-! ## Safe runs -/

/-- The invariant of the machine: memory keeps its canonical form, so that equal memories are equal data. -/
def State.Inv (s : State) : Prop := Memory.wf s.mem = true

/-- A step is safe when the machine neither stops with a fault nor meets an instruction without a meaning. -/
def State.Safe (s : State) : Prop := ∃ t, step s = .next t

/-! ## When an instruction runs -/

/-- Instruction i with fields e stands in the issue stage of s with view v: its fibre is Current and waits for nothing (R42), its lanes are ready at its IP (R52), its word passes the checks of R169, its team
holds no uncorrectable unit (R464), and some lane is active (R410). -/
structure Runs (i : Instr) (e : Enc) (s : State) (v : View) : Prop where
  view : s.view = some v
  current : v.f.run = .current ∧ v.f.waits = .none
  lanes : ∀ lane, v.mask.getLsbD lane = true → v.f.ip lane = v.ip ∧ v.f.ready.getLsbD lane = true
  mod : i.modOk = true
  ok : i.fault v.limits = none
  good : v.t.bad = []
  some : v.active e ≠ 0

/-- No write of the fibre to one of n registers from an operand is still within its latency (R45). -/
def View.Clear (v : View) (o : Operand) (n : Nat) : Prop :=
  ∀ h ∈ v.f.hazards, h.live v.s.now = true → ∀ w, w < n → ¬ (h.cls = o.cls ∧ h.reg = v.regNo o.cls (o.num.toNat + w))

/-! ## What registers hold -/

/-- What a register of a fibre holds in a lane: a pool register by its pool number, a uniform register, a predicate. -/
def State.cell (s : State) (fid : Nat) (cls : Cls) (q lane : Nat) : Word :=
  match s.fibre? fid with
  | none => 0
  | some f => match s.team? f.team with
    | none => 0
    | some t => cellOf t f cls q lane

/-- A word of a team's register pool. -/
def State.poolWord (s : State) (team k : Nat) : Word := ((s.team? team).map fun t => SMap.get 0 t.pool k).getD 0

/-- A destination: the operand, its registers, the lanes written, and the value of each lane. -/
structure Dest where
  o : Operand
  n : Nat
  lanes : Mask
  val : Nat → Nat

/-- What a register of a class holds when x is written to it: a word, or the bit x ≠ 0, and p0 always true (R72). -/
def asCell (cls : Cls) (q x : Nat) : Word :=
  if cls = .pred then (if q = 0 ∨ x % 2 ^ 32 ≠ 0 then 1 else 0) else BitVec.ofNat 32 x

/-- Register q of a class in a lane is written by the destination. -/
def Dest.Hits (d : Dest) (v : View) (cls : Cls) (q lane : Nat) : Prop :=
  d.o.cls = cls ∧ (∃ w, w < d.n ∧ q = v.regNo cls (d.o.num.toNat + w)) ∧ (cls = .uni ∨ d.lanes.getLsbD lane = true)

/-- The registers after an instruction: each destination holds its value in every register that no other destination of the
instruction writes too, and every other register of the fibre, every other word of the team's pool, is as before. -/
structure Holds (s t : State) (v : View) (ds : List Dest) : Prop where
  new : ∀ d ∈ ds, ∀ w lane, w < d.n → lane < 32 → d.Hits v d.o.cls (v.regNo d.o.cls (d.o.num.toNat + w)) lane →
    (∀ c ∈ ds, c.Hits v d.o.cls (v.regNo d.o.cls (d.o.num.toNat + w)) lane → c = d) →
    t.cell v.f.id d.o.cls (v.regNo d.o.cls (d.o.num.toNat + w)) lane =
      asCell d.o.cls (d.o.num.toNat + w) (d.val (if d.o.cls = .uni then 0 else lane) / 2 ^ (32 * w))
  regs : ∀ cls q lane, lane < 32 → (∀ d ∈ ds, ¬ d.Hits v cls q lane) → t.cell v.f.id cls q lane = s.cell v.f.id cls q lane
  pool : ∀ k, (∀ d ∈ ds, ∀ q lane, lane < 32 → d.Hits v .vec q lane → k ≠ poolKey v.f.slot q + lane) →
    t.poolWord v.t.id k = s.poolWord v.t.id k

/-- Lanes stand at IPs, and every other lane of the fibre where it stood. -/
def Stands (t : State) (v : View) (lanes : Mask) (ip : Nat → Word) : Prop :=
  ∀ f, t.fibre? v.f.id = some f → ∀ lane, lane < 32 → f.ip lane = if lanes.getLsbD lane then ip lane else v.f.ip lane

/-- What an instruction that only writes registers leaves unchanged: of the fibre everything but its IPs, registers,
flags and timing, of the team everything but its pool, of the core everything but the order in which it asks its slots, every
other fibre, team and core, and all the rest of the state, memory among it. -/
structure OnlyRegs (s t : State) (v : View) : Prop where
  fibre : ∃ ips nb hz ur pr fl, t.fibre? v.f.id =
    some { v.f with ips := ips, notBefore := nb, hazards := hz, uregs := ur, preds := pr, fpflags := fl }
  fibres : ∀ g, g ≠ v.f.id → t.fibre? g = s.fibre? g
  team : ∃ pool, t.team? v.t.id = some { v.t with pool := pool }
  teams : ∀ k, k ≠ v.t.id → t.team? k = s.team? k
  core : ∃ rr li, t.core v.t.core = { s.core v.t.core with rr := rr, lastIssue := li }
  cores : ∀ c, c ≠ v.t.core → t.core c = s.core c
  rest : { t with fibres := s.fibres, teams := s.teams, cores := s.cores } = s

/-- The issue step has been counted: the core has issued in this cycle from the fibre's slot (R41), and the fibre issues
next after its stall count (R43). -/
structure Counted (s t : State) (v : View) (e : Enc) : Prop where
  issued : (t.core v.t.core).lastIssue = some s.now ∧ (t.core v.t.core).rr = v.t.slotOf v.f
  stall : ∀ f, t.fibre? v.f.id = some f → f.notBefore = max v.f.notBefore (s.now + 1 + e.st.toNat)

/-- The sticky flags of the fibre are as before with some flags set (R82). -/
def FlagsRaised (t : State) (v : View) (fl : Nat) : Prop :=
  ∀ f, t.fibre? v.f.id = some f → f.fpflags = v.f.fpflags ||| BitVec.ofNat 32 fl

/-- An instruction of fixed latency performs: its destinations hold their values, its lanes go to IP + 1, its flags are
raised, and nothing else changes. -/
structure Performs (s t : State) (v : View) (e : Enc) (ds : List Dest) (fl : Nat) : Prop where
  frame : OnlyRegs s t v
  ips : Stands t v v.mask fun _ => v.ip + 1
  counted : Counted s t v e
  regs : Holds s t v ds
  flags : FlagsRaised t v fl

/-- A register write of a result that will write word w of a destination. -/
def RegWrite.Is (x : RegWrite) (v : View) (d : Dest) (w : Nat) : Prop :=
  x.cls = d.o.cls ∧ x.reg = v.regNo d.o.cls (d.o.num.toNat + w) ∧
    ∀ lane, lane < 32 → (if d.o.cls = .uni then lane = 0 else d.lanes.getLsbD lane = true) →
      x.lanes.getLsbD lane = true ∧ SMap.get 0 x.vals lane = BitVec.ofNat 32 (d.val lane / 2 ^ (32 * w))

/-- An instruction of variable latency issues: a result with the destinations' values is outstanding (R46), its lanes go
to IP + 1, and nothing else changes. -/
structure Owes (s t : State) (v : View) (e : Enc) (ds : List Dest) (fl : Nat) : Prop where
  result : ∃ r, t.results = s.results ++ [r] ∧ r.fid = v.f.id ∧ r.known = true ∧ r.flags = BitVec.ofNat 5 fl ∧
    r.writes.length = (ds.map Dest.n).foldl (· + ·) 0 ∧
    ∀ before d after, ds = before ++ d :: after → ∀ w, w < d.n →
      ∃ x, r.writes[(before.map Dest.n).foldl (· + ·) 0 + w]? = some x ∧ x.Is v d w
  frame : OnlyRegs { s with results := t.results, nextId := s.nextId + 1 } t v
  ips : Stands t v v.mask fun _ => v.ip + 1
  counted : Counted s t v e
  regs : Holds s t v []
  flags : FlagsRaised t v 0

/-- The issue of an instruction in a view, with the position of its literal. -/
abbrev View.at (v : View) (i : Instr) (e : Enc) : Iss := v.issue i e

/-- An instruction traps as it issues: the trap stands in the fibre with its cause, FIELD, DETAIL, MASK, IP and OFFSET (R83),
the fibre waits to enter it (R412), and no register, no lane's IP and no other part of the machine changes (R410). -/
structure Traps (s t : State) (v : View) (cause field detail : Nat) (mask : Mask) (offset : Nat) : Prop where
  raised : t = s.raise v.f.id ⟨BitVec.ofNat 8 cause, BitVec.ofNat 3 field, BitVec.ofNat 16 detail, mask, v.ip, BitVec.ofNat 32 offset⟩
  same : t.mem = s.mem ∧ t.teams = s.teams ∧ t.results = s.results ∧ t.ops = s.ops
  fibre : ∃ f, t.fibre? v.f.id = some f ∧ f.ips = v.f.ips ∧ f.uregs = v.f.uregs ∧ f.preds = v.f.preds ∧ f.run = .trapping ∧
    f.pending = some (v.f.pending.getD ⟨BitVec.ofNat 8 cause, BitVec.ofNat 3 field, BitVec.ofNat 16 detail, mask, v.ip, BitVec.ofNat 32 offset⟩)

end Sys2Proof.Machine
end

