-- ==== Sys2Proof/Certificates/Slice0/Obligations.lean ====
section
/-! DEFINITION. What is claimed of the machine: one definition each, with the tables of results that they range over. -/

open Sys2Proof Sys2Proof.Machine

/-! ## Words and steps -/

/-- The 160-bit word of five 32-bit words, word 0 first (R168). -/
def Sys2Proof.Machine.fiveWords (a b c d e : Nat) : Nat := a + 2 ^ 32 * b + 2 ^ 64 * c + 2 ^ 96 * d + 2 ^ 128 * e

/-- The words that the examples of R281 and R314 write out, and one written by hand from R168 and R170, decode to `mma a2, t4, 0xC333`, to `(p1) app.row64.pkg v6, s16, 5, s24, v2` and to `add.u32 v3, v1, s2`, operand by operand. (R168, R170, R182, R281, R314) -/
def Obligations.HandWrittenWordsDecode : Prop :=
  (∃ e, decodeTableWord 160 (fiveWords 0x00000300 0x09000015 0x6199F000 0 0) = some (.mma e) ∧
    e.d.cls = .acc ∧ e.d.num = 2 ∧ e.a.cls = .tile ∧ e.a.num = 4 ∧ e.b.cls = .imm ∧ e.b.imm = 0xC333) ∧
  (∃ e, decodeTableWord 160 (fiveWords 0x00010F84 0x20800031 0x0002F000 0x11000308 0x00300000) = some (.app e) ∧
    e.mod = 3 ∧ e.ga = 1 ∧ e.d.cls = .vec ∧ e.d.num = 6 ∧ e.a.cls = .uni ∧ e.a.num = 16 ∧ e.b.cls = .imm ∧ e.b.imm = 5 ∧
    e.c.cls = .uni ∧ e.c.num = 24 ∧ e.e.cls = .vec ∧ e.e.num = 2 ∧ e.sc = 3) ∧
  (∃ e, decodeTableWord 160 (fiveWords (0x042 + 2 ^ 10) (1 + 3 * 2 ^ 3 + (1 + 1 * 2 ^ 3) * 2 ^ 22) ((2 + 2 * 2 ^ 3) * 2 ^ 12) 0 0) = some (.add e) ∧
    e.ty = 1 ∧ e.d.cls = .vec ∧ e.d.num = 3 ∧ e.a.cls = .vec ∧ e.a.num = 1 ∧ e.b.cls = .uni ∧ e.b.num = 2)

/-- Every well-formed instruction that has a word, with every operand at every value that its encoding admits, is what the decoder reads from its word. (R168, R169, R170, R182) -/
def Obligations.DecodeOfEncodeIsTheInstruction : Prop :=
  ∀ (i : Instr) (w : BitVec 160), i.wellFormed = true → encode i = some w → decodeWord w = i

/-- Every word of 160 bits decodes to an instruction whose own word it is, so that no bit of a word is dropped and no two words decode to one instruction. (R168, R169, R170, R182, R183) -/
def Obligations.EncodeOfDecodeIsTheWord : Prop :=
  ∀ w : BitVec 160, encode (decodeWord w) = some w

/-- A word whose OP no row of the opcode table has decodes to the illegal instruction, the zero word among them; and the illegal instruction, whatever its word, raises the illegal-instruction trap for the ready lanes at its IP and does nothing else. (R183) -/
def Obligations.UnassignedOpcodeIsIllegal : Prop :=
  (∀ w : BitVec 160, (∀ (i : Instr) op e, i.parts = some (op, e) → op ≠ opOf w) → decodeWord w = .illegalInstruction w) ∧
  decodeWord 0 = .illegalInstruction 0 ∧
  ∀ (w : BitVec 160) (s : State) (v : View), s.view = some v →
    ∃ t : State, exec (.illegalInstruction w) s = .next t ∧ Traps s t v 1 0 (w.toNat % 2 ^ 16) v.mask 0

/-- When the issue stage of a core chooses a fibre whose ready lanes all stand at one IP inside the code range, its word is at hand, it is the word of a well-formed instruction i and bears no switch marker, the step is exec of i with the cursor on those lanes, and the cursor is clear afterwards. (R41, R52, R166, R168) -/
def Obligations.StepRunsTheDecodedInstruction : Prop :=
  ∀ (s s1 : State) (core a : Nat) (f : Fibre) (t : Team) (l k : Launch) (i : Instr),
    s.turn = some (.issue core) →
    State.chosen { s with tick := s.tick + 1, turn := none } core = some f →
    s.team? f.team = some t → s.launch? t.launch = some l →
    f.readyIps = [a] → (l.kernelAt t.kernel).inRange a = true →
    State.fetch { s with tick := s.tick + 1, turn := none } core l a = (.ok, s1) → s1.launch? l.id = some k →
    encode i = some (k.wordAt a) → i.wellFormed = true → swOf (k.wordAt a) = false →
    step s = onNext (exec i { s1 with cursor := some { fid := f.id, ip := BitVec.ofNat 32 a, mask := f.lanesAt a } })
      fun u => .next { u with cursor := none }

/-- When the issue stage chooses a fibre whose lowest ready IP lies outside the code range of its kernel, the step raises badtarget (0x09) with FIELD 0 and DETAIL 3 for the ready lanes at that IP, and no instruction runs. (R419, R412) -/
def Sys2Proof.Machine.FetchOutsideTheCodeTraps : Prop :=
  ∀ (s : State) (core : Nat) (f : Fibre) (t : Team) (l : Launch),
    s.turn = some (.issue core) →
    State.chosen { s with tick := s.tick + 1, turn := none } core = some f →
    s.team? f.team = some t → s.launch? t.launch = some l →
    (l.kernelAt t.kernel).inRange f.pathA = false →
    step s = .next { State.raise { s with tick := s.tick + 1, turn := none, cursor := some ⟨f.id, BitVec.ofNat 32 f.pathA, f.lanesAt f.pathA⟩ } f.id
      ⟨9, 0, 3, f.lanesAt f.pathA, BitVec.ofNat 32 f.pathA, 0⟩ with cursor := none }

/-- FETCH_OUTSIDE_CODE with a fibre in the issue stage raises badtarget (0x09), FIELD 0, DETAIL 3, for the ready lanes at the IP, and no register, no lane and no memory changes. (R419, R417) -/
def Sys2Proof.Machine.FetchOutsideIsATrapOfTheReadyLanes : Prop :=
  ∀ (s : State) (v : View), s.view = some v → ∃ t : State, exec .fetchOutsideCode s = .next t ∧ Traps s t v 9 0 3 v.mask 0

/-- A ready lane whose IP lies outside the code range raises badtarget with DETAIL 3: the claims FetchOutsideTheCodeTraps, FetchOutsideIsATrapOfTheReadyLanes together. (R412, R417, R419) -/
def Obligations.OutsideTheCodeRangeTraps : Prop :=
  FetchOutsideTheCodeTraps ∧ FetchOutsideIsATrapOfTheReadyLanes

/-! ## Reset and the invariant -/

/-- Right after package reset %time is 0, nothing is launched, registered or outstanding, no team and no fibre exists, memory lists no byte, the boot phase stands before coolant, and the request and status word of every mailbox read 0. (R32, R80, R398, R403) -/
def Obligations.ResetLeavesTheStatedValues : Prop :=
  State.reset.now = 0 ∧ State.reset.launches = [] ∧ State.reset.queues = [] ∧ State.reset.fibres = [] ∧ State.reset.teams = [] ∧
  State.reset.results = [] ∧ State.reset.mem = [] ∧ State.reset.pkg.boot = .rom ∧ State.reset.pkg.bootStatus = 0 ∧
  ∀ m ∈ State.reset.pkg.mailboxes, m.request = 0 ∧ m.status = 0

/-- The invariant that memory keeps its canonical form holds of the state right after package reset. (R6) -/
def Obligations.ResetMemoryIsCanonical : Prop :=
  State.reset.Inv

/-- From any state whose memory is in canonical form (keys strictly rising, no entry equal to what an unlisted byte reads as), a step that answers a next state answers one whose memory is in canonical form. (R6, R111, R115) -/
def Obligations.EveryStepKeepsMemoryCanonical : Prop :=
  ∀ s t : State, s.Inv → step s = .next t → t.Inv

/-- In every state p0 of every fibre holds true in every lane, and a register write to p0 leaves every register as it stood; a register write to any other predicate leaves that predicate as it stood in every lane outside its mask, and every other register. (R72) -/
def Obligations.PredicateWritesObeyTheirLanes : Prop :=
  (∀ (t : Team) (f : Fibre) (lane : Nat), cellOf t f .pred 0 lane = 1) ∧
  ∀ (s : State) (fid p : Nat) (u : Option Nat) (lanes : Mask) (vals : SMap Word) (cls : Cls) (q lane : Nat), lane < 32 →
    (p = 0 ∨ ¬ (cls = .pred ∧ q = p ∧ lanes.getLsbD lane = true)) →
    (s.writeReg fid u ⟨.pred, p, lanes, vals⟩).cell fid cls q lane = s.cell fid cls q lane

/-! ## The frame of every instruction -/

/-- An instruction of any opcode whose word fails check 3, 4 or 5 of R169 raises the trap, FIELD and DETAIL of that check with MASK the ready lanes at the IP, even when its guard is false in every lane; no register, no lane and no memory changes. (R169, R410, R417) -/
def Sys2Proof.Machine.MalformedWordTrapsWithNoEffect : Prop :=
  ∀ (i : Instr) (op c f d : Nat) (e : Enc) (s : State) (v : View), i.parts = some (op, e) → s.view = some v →
    i.fault v.limits = some (c, f, d) → ∃ t : State, exec i s = .next t ∧ Traps s t v c f d v.mask 0

/-- A well-formed instruction of any opcode whose guard is false in every ready lane at its IP either moves those lanes to IP + 1 and changes nothing else but the order in which the core asks its slots and the stall count, or raises a trap of the ready lanes and changes nothing else. (R177, R193, R410) -/
def Sys2Proof.Machine.GuardedOffInstructionOnlyAdvances : Prop :=
  ∀ (i : Instr) (op : Nat) (e : Enc) (s : State) (v : View), i.parts = some (op, e) → s.view = some v →
    i.fault v.limits = none → v.t.bad = [] → v.active e = 0 →
    ∃ t : State, exec i s = .next t ∧
      ((OnlyRegs s t v ∧ Stands t v v.mask (fun _ => v.ip + 1) ∧ Counted s t v e ∧ Holds s t v []) ∨
        ∃ c d, Traps s t v c 0 d v.mask 0)

/-- A well-formed add whose source A is a uniform register with an uncorrectable error, in a fibre whose guards are good, raises dataerr (0x15) with DETAIL 2 for the active lanes, and no register, no lane and no memory changes. (R463, R464) -/
def Sys2Proof.Machine.UncorrectableSourceTraps : Prop :=
  ∀ (e : Enc) (s : State) (v : View), s.view = some v → (Instr.add e).fault v.limits = none → v.active e ≠ 0 →
    e.a.cls = .uni → v.t.bad.contains (regUnit v.f .uni e.a.num.toNat 0) = true → e.b.cls = .imm →
    v.t.bad.contains (regUnit v.f .pred (e.ga.toNat % 64) 0) = false →
    v.t.bad.contains (regUnit v.f .pred (e.gb.toNat % 64) 0) = false →
    ∃ t : State, exec (.add e) s = .next t ∧ Traps s t v 0x15 0 2 (v.active e) 0

/-- A malformed word and an uncorrectable source trap with no effect, and a false guard leaves the instruction none: the claims MalformedWordTrapsWithNoEffect, GuardedOffInstructionOnlyAdvances, UncorrectableSourceTraps together. (R169, R177, R193, R410, R417, R463, R464) -/
def Obligations.ChecksAndGuardsComeBeforeTheEffect : Prop :=
  MalformedWordTrapsWithNoEffect ∧ GuardedOffInstructionOnlyAdvances ∧ UncorrectableSourceTraps

/-! ## Results of fixed and variable latency -/

namespace Sys2Proof.Machine

/-- The lanes whose value a destination D takes: the active lanes, or lane 0 of the uniform datapath for a uniform D (R195). -/
def View.Takes (v : View) (e : Enc) (lane : Nat) : Prop :=
  if e.d.cls = .uni then lane = 0 else (v.active e).getLsbD lane = true

/-- An instruction that writes the n registers of D with a value of each active lane, and raises flags: at once when its
latency is fixed, as a result when it is variable. -/
def WritesD (variable_ : Bool) (i : Instr) (e : Enc) (s : State) (v : View) (n fl : Nat) (val : Nat → Nat) : Prop :=
  ∃ t : State, exec i s = .next t ∧
    (if variable_ then Owes s t v e [⟨e.d, n, v.active e, val⟩] fl else Performs s t v e [⟨e.d, n, v.active e, val⟩] fl)

/-- The signed or unsigned integer in element k of source FIELD f in a lane. -/
def Iss.part (x : Iss) (ty : Ty) (f lane k : Nat) : Int :=
  if ty.sg then signed ty.n (ty.elem (x.src f ty lane) k) else (ty.elem (x.src f ty lane) k : Nat)

/-- The elements of A, B and C of a lane (R205, R206). -/
structure Parts where
  a : Int
  b : Int
  c : Int

/-- The largest and the smallest value of an integer type. -/
def Ty.top (ty : Ty) : Int := if ty.sg then 2 ^ (ty.n - 1) - 1 else 2 ^ ty.n - 1

/-- The smallest value of an integer type. -/
def Ty.bottom (ty : Ty) : Int := if ty.sg then -2 ^ (ty.n - 1) else 0

/-- The integer instructions that act on each element: variable latency or fixed, and the element of D, modulo 2^n, by
the elements of A, B and C (R100, R206, R213). -/
def intElement : Instr → Option (Enc × Bool × (Ty → Parts → Int))
  | .add e => some (e, false, fun _ p => p.a + p.b)
  | .sub e => some (e, false, fun _ p => p.a - p.b)
  | .adds e => some (e, false, fun ty p => max ty.bottom (min ty.top (p.a + p.b)))
  | .subs e => some (e, false, fun ty p => max ty.bottom (min ty.top (p.a - p.b)))
  | .mul e => some (e, false, fun _ p => p.a * p.b)
  | .mulhi e => some (e, false, fun ty p => p.a * p.b / 2 ^ ty.n)
  | .mad e => some (e, false, fun _ p => p.a * p.b + p.c)
  | .min e => some (e, false, fun _ p => if p.a ≤ p.b then p.a else p.b)
  | .max e => some (e, false, fun _ p => if p.a ≤ p.b then p.b else p.a)
  | .abs e => some (e, false, fun ty p =>
      if p.a = ty.bottom ∧ e.rm = 5 then ty.top else if p.a < 0 then -p.a else p.a)
  | .neg e => some (e, false, fun ty p => if p.a = ty.bottom ∧ e.rm = 5 then ty.top else -p.a)
  | .div e => some (e, true, fun ty p =>
      if p.b = 0 then (if ty.sg = true ∧ p.a < 0 then ty.bottom else ty.top) else p.a.tdiv p.b)
  | .rem e => some (e, true, fun _ p => if p.b = 0 then p.a else p.a - p.b * p.a.tdiv p.b)
  | _ => none

/-- The bitwise instructions: bit j of D by bit j of A and of B (R206). -/
def intBit : Instr → Option (Enc × (Bool → Bool → Bool))
  | .mov e => some (e, fun a _ => a)
  | .movl e => some (e, fun a _ => a)
  | .and e => some (e, fun a b => a && b)
  | .or e => some (e, fun a b => a || b)
  | .xor e => some (e, fun a b => xor a b)
  | .andn e => some (e, fun a b => a && !b)
  | .not e => some (e, fun a _ => !a)
  | _ => none

/-- The shifts of an element by an unsigned count (R209): the element of D, modulo 2^n, by the element of A and the count. -/
def intShift : Instr → Option (Enc × (Ty → Int → Nat → Int))
  | .shl e => some (e, fun _ a c => a * 2 ^ c)
  | .shr e => some (e, fun _ a c => a / 2 ^ c)
  | .sar e => some (e, fun _ a c => a / 2 ^ c)
  | .rot e => some (e, fun ty a c => a * 2 ^ (c % ty.n) + a / 2 ^ (ty.n - c % ty.n))
  | _ => none

/-- The other integer instructions: the words of D and its value in a lane (R208 to R212). -/
def intValue : Instr → Option (Enc × (Iss → Nat) × (Iss → Nat → Nat))
  | .madw e => some (e, fun _ => 2, fun x L =>
      let wide : Ty := ⟨64, 64, false, x.ty.sg⟩
      wrap 64 (x.part x.ty 2 L 0 * x.part x.ty 3 L 0 + x.part wide 4 L 0))
  | .dsh e => some (e, fun _ => 1, fun x L =>
      let w := x.src 2 .u32 L * 2 ^ 32 + x.src 3 .u32 L
      let k := signed 32 (x.src 4 .i32 L)
      if 0 ≤ k then w * 2 ^ min k.toNat 32 / 2 ^ 32 % 2 ^ 32 else w / 2 ^ min (-k).toNat 32 % 2 ^ 32)
  | .bfe e => some (e, fun x => x.ty.words, fun x L =>
      bfeVal x.ty.sg x.ty.n (x.src 2 x.ty L) (x.src 3 .u32 L % 256) (x.src 3 .u32 L / 256 % 256))
  | .bfi e => some (e, fun x => x.ty.words, fun x L =>
      bfiVal x.ty.n (x.src 2 x.ty L) (x.src 3 x.ty L) (x.src 4 .u32 L % 256) (x.src 4 .u32 L / 256 % 256))
  | .popc e => some (e, fun _ => 1, fun x L => ((List.range x.ty.n).filter fun k => bitN (x.src 2 x.ty L) k).length)
  | .clz e => some (e, fun _ => 1, fun x L => clzVal x.ty.n (x.src 2 x.ty L))
  | .ctz e => some (e, fun _ => 1, fun x L => ctzVal x.ty.n (x.src 2 x.ty L))
  | .brev e => some (e, fun x => x.ty.words, fun x L => brevVal x.ty.n (x.src 2 x.ty L))
  | .bsel e => some (e, fun _ => 1, fun x L =>
      packElems 8 ((List.range 4).map fun k =>
        bselByte (x.src 3 .u32 L + 2 ^ 32 * x.src 2 .u32 L) (x.src 4 .u32 L / 2 ^ (8 * k) % 256)))
  | .sad e => some (e, fun _ => 1, fun x L =>
      (x.src 4 .u32 L + ((List.range x.ty.count).map fun k => (x.part x.ty 2 L k - x.part x.ty 3 L k).natAbs).sum) % 2 ^ 32)
  | .cmp e => some (e, fun _ => 1, fun x L => b2n (cmpInt e.var (x.part x.ty 2 L 0) (x.part x.ty 3 L 0)))
  | .csel e => some (e, fun x => x.ty.words, fun x L => if x.src 4 .u32 L = 1 then x.src 2 x.ty L else x.src 3 x.ty L)
  | .ipget e => some (e, fun _ => 1, fun x _ => wrap 32 ((x.v.ip.toNat : Int) + signed 19 e.a.imm))
  | .srd e => some (e, fun _ => specWords e.a.num.toNat, fun x L =>
      x.special e.a.num.toNat (if e.d.cls = .uni then (lanesOf x.act).headD 0 else L))
  | _ => none

/-- Predicate logic: the bit of D in a lane (R214). -/
def predBit : Instr → Option (Enc × (Iss → Nat → Bool))
  | .pand e => some (e, fun x L => x.bit 2 L && x.bit 3 L)
  | .por e => some (e, fun x L => x.bit 2 L || x.bit 3 L)
  | .pxor e => some (e, fun x L => xor (x.bit 2 L) (x.bit 3 L))
  | .pnot e => some (e, fun x L => !x.bit 2 L)
  | .psetNe e => some (e, fun x L => decide (x.src 2 .u32 L ≠ 0))
  | .psetMask e => some (e, fun x L => decide (x.src 2 .u32 L / 2 ^ L % 2 = 1))
  | _ => none

end Sys2Proof.Machine

/-- add, sub, adds, subs, mul, mulhi, mad, min, max, abs and neg complete with element k of D in every active lane equal to the stated function of the elements k of A, B and C modulo 2^n; div and rem issue a result with those values, division by zero among them; every other register, predicate, flag, special register and all of memory is unchanged. (R100, R195, R205, R206, R213, R410) -/
def Sys2Proof.Machine.IntegerElementInstructionsWriteTheirResult : Prop :=
  ∀ (i : Instr) (e : Enc) (var : Bool) (g : Ty → Parts → Int) (s : State) (v : View), intElement i = some (e, var, g) →
    Runs i e s v → v.Clear e.d (Ty.int e.ty).words →
    ∃ val, WritesD var i e s v (Ty.int e.ty).words 0 val ∧
      ∀ lane k, v.Takes e lane → k < (Ty.int e.ty).count →
        (Ty.int e.ty).elem (val lane) k = wrap (Ty.int e.ty).n (g (Ty.int e.ty)
          ⟨(v.at i e).part (Ty.int e.ty) 2 lane k, (v.at i e).part (Ty.int e.ty) 3 lane k, (v.at i e).part (Ty.int e.ty) 4 lane k⟩)

/-- mov, movl, and, or, xor, andn and not complete with bit j of D in every active lane equal to the stated function of the bits j of A and B, and every other register, flag, special register and all of memory is unchanged. (R206, R410) -/
def Sys2Proof.Machine.BitwiseInstructionsWriteTheirResult : Prop :=
  ∀ (i : Instr) (e : Enc) (g : Bool → Bool → Bool) (s : State) (v : View), intBit i = some (e, g) →
    Runs i e s v → v.Clear e.d (Ty.int e.ty).words →
    ∃ val, WritesD false i e s v (Ty.int e.ty).words 0 val ∧
      ∀ lane j, v.Takes e lane → j < (Ty.int e.ty).bits →
        bitN (val lane) j = g (bitN ((v.at i e).src 2 (Ty.int e.ty) lane) j) (bitN ((v.at i e).src 3 (Ty.int e.ty) lane) j)

/-- shl, shr, sar and rot complete with element k of D in every active lane equal to the element of A shifted by the unsigned count of B, a count of the width or more included, and nothing else changes. (R209, R410) -/
def Sys2Proof.Machine.ShiftsWriteTheirResult : Prop :=
  ∀ (i : Instr) (e : Enc) (g : Ty → Int → Nat → Int) (s : State) (v : View), intShift i = some (e, g) →
    Runs i e s v → v.Clear e.d (Ty.int e.ty).words →
    ∃ val, WritesD false i e s v (Ty.int e.ty).words 0 val ∧
      ∀ lane k, v.Takes e lane → k < (Ty.int e.ty).count →
        (Ty.int e.ty).elem (val lane) k = wrap (Ty.int e.ty).n
          (g (Ty.int e.ty) ((v.at i e).part (Ty.int e.ty) 2 lane k) ((v.at i e).src 3 .u32 lane))

/-- Integer arithmetic, bitwise logic and shifts complete with the stated result and change nothing else: the claims IntegerElementInstructionsWriteTheirResult, BitwiseInstructionsWriteTheirResult, ShiftsWriteTheirResult together. (R100, R195, R205, R206, R209, R213, R410) -/
def Obligations.ArithmeticLogicAndShiftsWriteTheirResult : Prop :=
  IntegerElementInstructionsWriteTheirResult ∧ BitwiseInstructionsWriteTheirResult ∧ ShiftsWriteTheirResult

/-- madw, dsh, bfe, bfi, popc, clz, ctz, brev, bsel, sad, cmp, csel, ipget and srd complete with D in every active lane equal to the value of the table, and every other register, predicate, flag, special register and all of memory is unchanged. (R204, R208, R209, R210, R211, R212, R326) -/
def Obligations.OtherIntegerInstructionsWriteTheirResult : Prop :=
  ∀ (i : Instr) (e : Enc) (n : Iss → Nat) (g : Iss → Nat → Nat) (s : State) (v : View), intValue i = some (e, n, g) →
    Runs i e s v → v.Clear e.d (n (v.at i e)) → WritesD false i e s v (n (v.at i e)) 0 (g (v.at i e))

/-- addc completes with D = (A + B + C) mod 2^32 and predicate E the carry out, subb with D = (A - B - C) mod 2^32 and predicate E the borrow out, where C is 1 in the lanes in which the predicate C is true; nothing else changes. (R207, R72) -/
def Sys2Proof.Machine.CarryInstructionsWriteSumAndCarry : Prop :=
  ∀ (e : Enc) (s : State) (v : View) (sub : Bool),
    let i := if sub then Instr.subb e else Instr.addc e
    let a := fun lane => ((v.at i e).src 2 .u32 lane : Int)
    let b := fun lane => ((v.at i e).src 3 .u32 lane : Int)
    let c := fun lane => ((v.at i e).src 4 .u32 lane : Int)
    let total := fun lane => if sub then a lane - b lane - c lane else a lane + b lane + c lane
    Runs i e s v → v.Clear e.d 1 → v.Clear e.e 1 →
    ∃ t : State, exec i s = .next t ∧
      Performs s t v e
        [⟨e.d, 1, v.active e, fun lane => (total lane % 2 ^ 32).toNat⟩,
         ⟨e.e, 1, v.active e, fun lane => if total lane < 0 ∨ 2 ^ 32 ≤ total lane then 1 else 0⟩] 0

/-- pand, por, pxor, pnot, pset.ne and pset.mask complete with predicate D true in exactly those active lanes in which the stated condition holds, every other lane of D and every other register keeping its value, and a write to p0 discarded. (R72, R214) -/
def Sys2Proof.Machine.PredicateLogicWritesItsBits : Prop :=
  ∀ (i : Instr) (e : Enc) (g : Iss → Nat → Bool) (s : State) (v : View), predBit i = some (e, g) →
    Runs i e s v → v.Clear e.d 1 → WritesD false i e s v 1 0 fun lane => if g (v.at i e) lane = true then 1 else 0

/-- pget completes with D holding, in bit j for j from 0 to 31, the bit of predicate A in lane j, inverted by NEG, whatever the state of lane j; nothing else changes. (R215) -/
def Sys2Proof.Machine.PgetCollectsAPredicate : Prop :=
  ∀ (e : Enc) (s : State) (v : View), Runs (.pget e) e s v → v.Clear e.d 1 →
    ∃ val, WritesD false (.pget e) e s v 1 0 val ∧
      ∀ lane j, v.Takes e lane → j < 32 → bitN (val lane) j = (v.pred e.a.num.toNat j != e.a.neg)

/-- Carry instructions, predicate logic and pget write the stated bits and change nothing else: the claims CarryInstructionsWriteSumAndCarry, PredicateLogicWritesItsBits, PgetCollectsAPredicate together. (R72, R207, R214, R215) -/
def Obligations.CarryAndPredicateInstructionsWriteTheirBits : Prop :=
  CarryInstructionsWriteSumAndCarry ∧ PredicateLogicWritesItsBits ∧ PgetCollectsAPredicate

/-! ## Cross-lane instructions (R216 to R220) -/

namespace Sys2Proof.Machine

/-- The cross-lane instructions: the words of D, a lane's own value when it is not in the member mask, and the result and
validity of a lane over the list K of the members of its sub-group (R217, R219, R220). -/
def crossLane : Instr → Option (Enc × (Iss → Nat) × (Iss → Nat → Nat) × (Iss → Nat → List Nat → Nat × Bool))
  | .voteAny e => some (e, fun _ => 1, fun x L => b2n (x.voteBit L), fun x _ K => (b2n (K.any x.voteBit), true))
  | .voteAll e => some (e, fun _ => 1, fun x L => b2n (x.voteBit L), fun x _ K => (b2n (K.all x.voteBit), true))
  | .voteEq e => some (e, fun _ => 1, fun _ _ => 1,
      fun x _ K => (b2n (K.all x.voteBit || K.all fun j => !x.voteBit j), true))
  | .shfl e => some (e, fun x => x.ty.words, Iss.own, fun x L K =>
      match shflLane e.var x.v.f.sgw.toNat L (x.src 3 .u32 L) (signed 32 (x.src 3 .u32 L)) with
      | some j => if j ∈ K then (x.own j, true) else (x.own L, false)
      | none => (x.own L, false))
  | .lred e => some (e, fun x => x.ty.words, Iss.own, fun x _ K => (x.combine K, true))
  | .lscan e => some (e, fun x => x.ty.words, Iss.own, fun x L K =>
      (x.combine (K.filter fun j => if e.ext3 = 1 then j < L else j ≤ L), true))
  | .xmatch e => some (e, fun _ => 1, fun _ L => if e.var = 0 then 2 ^ L else if e.var = 1 then 0 else 1, fun x L K =>
      let same := K.filter fun j => x.own j = x.own L
      (if e.var = 0 then (maskOf same).toNat else if e.var = 1 then (same.filter fun j => j < L).length else same.length, true))
  | .elect e => some (e, fun _ => 1, fun _ _ => 0, fun _ L K => (b2n (K.head? = some L), true))
  | _ => none

end Sys2Proof.Machine

/-- vote.any, vote.all, vote.eq, shfl, lred, lscan, match and elect complete: an active lane in the member mask receives the stated result over the active members of its sub-group with its validity in predicate C, any other active lane its own value with validity 0; no other register, no flag and no memory changes. (R216, R217, R218, R219, R220, R175) -/
def Sys2Proof.Machine.CrossLaneInstructionsFollowTheirFrame : Prop :=
  ∀ (i : Instr) (e : Enc) (n : Iss → Nat) (own : Iss → Nat → Nat) (F : Iss → Nat → List Nat → Nat × Bool) (s : State)
    (v : View), crossLane i = some (e, n, own, F) → Runs i e s v → v.Clear e.d (n (v.at i e)) → v.Clear e.c 1 →
    let x := v.at i e
    let M := x.members
    let K := fun lane => (List.range 32).filter fun j =>
      x.act.getLsbD j && (decide (j - j % v.f.sgw.toNat = lane - lane % v.f.sgw.toNat) && bitN M j)
    let r := fun lane => if bitN M lane = true then F x lane (K lane) else (own x lane, false)
    ∃ t : State, exec i s = .next t ∧
      Performs s t v e [⟨e.d, n x, v.active e, fun lane => (r lane).1⟩, ⟨e.c, 1, v.active e, fun lane => b2n (r lane).2⟩] 0

/-- vote.ball completes: a vector D receives in each active member lane the mask of the active members of its sub-group whose predicate A is true (its own bit alone outside the member mask), a uniform D receives the mask of all active members whose predicate is true, and predicate C tells the member lanes. (R216, R217) -/
def Sys2Proof.Machine.VoteBallWritesTheBallot : Prop :=
  ∀ (e : Enc) (s : State) (v : View), Runs (.voteBall e) e s v → v.Clear e.d 1 → v.Clear e.c 1 →
    let x := v.at (.voteBall e) e
    let M := x.members
    let votes := fun (p : Nat → Bool) => (maskOf ((List.range 32).filter fun j => x.act.getLsbD j && bitN M j && p j && x.voteBit j)).toNat
    ∃ t : State, exec (.voteBall e) s = .next t ∧
      Performs s t v e
        [⟨e.d, 1, v.active e, fun lane =>
            if e.d.cls = .uni then votes fun _ => true
            else if bitN M lane = true then votes fun j => decide (j - j % v.f.sgw.toNat = lane - lane % v.f.sgw.toNat)
            else if x.voteBit lane = true then 2 ^ lane else 0⟩,
         ⟨e.c, 1, v.active e, fun lane => b2n (bitN M lane)⟩] 0

/-- Cross-lane instructions exchange values within sub-groups and write validity: the claims CrossLaneInstructionsFollowTheirFrame, VoteBallWritesTheBallot together. (R175, R216, R217, R218, R219, R220) -/
def Obligations.CrossLaneInstructionsExchangeWithinSubGroups : Prop :=
  CrossLaneInstructionsFollowTheirFrame ∧ VoteBallWritesTheBallot

/-! ## Floating point (R221 to R243) -/

namespace Sys2Proof.Machine

/-- The instructions that act on each floating-point element: variable latency or fixed, and the element of D with its
flags by the elements of A, B and C (R225, R226, R228, R229, R231). -/
def floatElement : Instr → Option (Enc × Bool × (Iss → Nat → Nat → Nat → Nat × Nat))
  | .fadd e => some (e, false, fun x a b _ => faddElem x.fmt x.mode a b)
  | .fsub e => some (e, false, fun x a b _ => fsubElem x.fmt x.mode a b)
  | .fmul e => some (e, false, fun x a b _ => fmulElem x.fmt x.mode a b)
  | .ffma e => some (e, false, fun x a b c => ffmaElem x.fmt x.mode a b c)
  | .fmin e => some (e, false, fun x a b _ => fminmax x.fmt false false a b)
  | .fmax e => some (e, false, fun x a b _ => fminmax x.fmt true false a b)
  | .fminx e => some (e, false, fun x a b _ => fminmax x.fmt false true a b)
  | .fmaxx e => some (e, false, fun x a b _ => fminmax x.fmt true true a b)
  | .fclamp e => some (e, false, fun x a b c => fclampElem x.fmt a b c)
  | .frnd e => some (e, false, fun x a _ _ => frndElem x.fmt x.mode a)
  | .fclass e => some (e, false, fun x a _ _ => (fclassElem x.fmt a, 0))
  | .fdiv e => some (e, true, fun x a b _ => fdivElem x.fmt x.mode a b)
  | .rcp e => some (e, true, fun x a _ _ => sfnElem x.fmt 0 x.mode a)
  | .rsqrt e => some (e, true, fun x a _ _ => sfnElem x.fmt 1 x.mode a)
  | .sqrt e => some (e, true, fun x a _ _ => sfnElem x.fmt 2 x.mode a)
  | .exp2 e => some (e, true, fun x a _ _ => sfnElem x.fmt 3 x.mode a)
  | .log2 e => some (e, true, fun x a _ _ => sfnElem x.fmt 4 x.mode a)
  | .sin e => some (e, true, fun x a _ _ => sfnElem x.fmt 5 x.mode a)
  | .cos e => some (e, true, fun x a _ _ => sfnElem x.fmt 6 x.mode a)
  | .tanh e => some (e, true, fun x a _ _ => sfnElem x.fmt 7 x.mode a)
  | .sigm e => some (e, true, fun x a _ _ => sfnElem x.fmt 8 x.mode a)
  | .gelu e => some (e, true, fun x a _ _ => sfnElem x.fmt 9 x.mode a)
  | .silu e => some (e, true, fun x a _ _ => sfnElem x.fmt 10 x.mode a)
  | .erf e => some (e, true, fun x a _ _ => sfnElem x.fmt 11 x.mode a)
  | _ => none

/-- The floating-point and conversion instructions that act on a whole lane: variable latency or fixed, and the value of
D with its flags (R227, R228, R230, R234 to R236, R239). -/
def floatLane : Instr → Option (Enc × Bool × (Iss → Nat → Nat × Nat))
  | .fcmp e => some (e, false, fun x L =>
      let a := x.fmt.value (x.src 2 x.fty L)
      let b := x.fmt.value (x.src 3 x.fty L)
      (if fcmpVal e.var a b = true then 1 else 0,
        flagIf (a.isSnan || b.isSnan || (decide (e.ext3 = 1) && (a.isNan || b.isNan))) NV))
  | .fscale e => some (e, false, fun x L =>
      x.each1 (fun a => fscaleElem x.fmt x.mode a (signed 32 (x.src 3 .i32 L))) L)
  | .fdot2 e => some (e, false, fun x L =>
      fdotVals x.mode ((List.range 2).map fun k =>
          (x.fmt.value (Ty.h16x2.elem (x.src 2 .h16x2 L) k), x.fmt.value (Ty.h16x2.elem (x.src 3 .h16x2 L) k)))
        (Fmt.f32.value (x.src 4 .f32 L)))
  | .fdot4 e => some (e, false, fun x L =>
      fdotVals x.mode ((List.range 4).map fun k =>
          ((if e.var / 2 = 0 then Fmt.e4m3 else Fmt.e5m2).value (Ty.b8x4.elem (x.src 2 .b8x4 L) k),
           (if e.var % 2 = 0 then Fmt.e4m3 else Fmt.e5m2).value (Ty.b8x4.elem (x.src 3 .b8x4 L) k)))
        (Fmt.f32.value (x.src 4 .f32 L)))
  | .cvt e => some (e, false, fun x L =>
      let r := cvtElem e.cvtSrc e.lo4 x.mode x.saturates (x.slotElem 2 e.cvtSrc x.slotPair.1 L)
      (putSlot e.lo4 x.slotPair.2 (x.oldD L) r.1, r.2))
  | .mxd e => some (e, true, fun x L =>
      mxdElem e.lo4 (x.src 3 .u32 L % 256) (x.slotElem 2 e.lo4 (if e.c.cls = .imm then e.c.imm % 4 else 0) L))
  | _ => none

end Sys2Proof.Machine

/-- fadd, fsub, fmul, ffma, fmin, fmax, fminx, fmaxx, fclamp, frnd and fclass complete, and fdiv and the special functions issue a result, with element k of D in every active lane the stated function of the elements k of A, B and C; the flags of every element of every active lane are raised with it, and nothing else changes. (Where R232 leaves a last bit of a special function open, the function takes it from a free value, log 5.) (R82, R221, R222, R225, R226, R228, R229, R231, R232) -/
def Sys2Proof.Machine.FloatElementInstructionsWriteResultAndFlags : Prop :=
  ∀ (i : Instr) (e : Enc) (var : Bool) (g : Iss → Nat → Nat → Nat → Nat × Nat) (s : State) (v : View),
    floatElement i = some (e, var, g) → Runs i e s v → v.Clear e.d 1 →
    let x := v.at i e
    let r := fun lane k => g x (x.fty.elem (x.src 2 x.fty lane) k) (x.fty.elem (x.src 3 x.fty lane) k) (x.fty.elem (x.src 4 x.fty lane) k)
    ∃ val, WritesD var i e s v 1 (orFlags (x.datapath.map fun lane => orFlags ((List.range x.fty.count).map fun k => (r lane k).2))) val ∧
      ∀ lane k, v.Takes e lane → k < x.fty.count → x.fty.elem (val lane) k = (r lane k).1 % 2 ^ x.fty.n

/-- fcmp, fscale, fdot2, fdot4 and cvt complete, and mxd issues a result, with D in every active lane the stated value, the flags of every active lane raised with it, and nothing else changed. (R82, R227, R228, R230, R234, R235, R236, R239) -/
def Sys2Proof.Machine.FloatLaneInstructionsWriteResultAndFlags : Prop :=
  ∀ (i : Instr) (e : Enc) (var : Bool) (g : Iss → Nat → Nat × Nat) (s : State) (v : View), floatLane i = some (e, var, g) →
    Runs i e s v → v.Clear e.d 1 →
    WritesD var i e s v 1 (orFlags ((v.at i e).datapath.map fun lane => (g (v.at i e) lane).2)) fun lane => (g (v.at i e) lane).1

/-- Floating-point and conversion instructions complete with result and flags, and change nothing else: the claims FloatElementInstructionsWriteResultAndFlags, FloatLaneInstructionsWriteResultAndFlags together. (R82, R221, R222, R225, R226, R227, R228, R229, R230, R231, R232, R234) -/
def Obligations.FloatInstructionsWriteResultAndFlags : Prop :=
  FloatElementInstructionsWriteResultAndFlags ∧ FloatLaneInstructionsWriteResultAndFlags

/-- mxq issues one result of variable latency that writes to D in every active lane its quantised element and to E the block scale, with the flags of the quantisation, inactive lanes counting as zero; nothing else changes. (R104, R238) -/
def Sys2Proof.Machine.MxqIssuesABlockAndItsScale : Prop :=
  ∀ (e : Enc) (s : State) (v : View), Runs (.mxq e) e s v →
    let x := v.at (.mxq e) e
    let q := mxQuantise (Fmt.ofCode e.lo4) x.mode ((List.range 32).map fun j =>
      if x.act.getLsbD j = true then Fmt.f32.value (x.src 2 .f32 j) else .fin false 0 0)
    ∃ t : State, exec (.mxq e) s = .next t ∧
      Owes s t v e [⟨e.d, 1, v.active e, fun lane => q.elems.getD lane 0⟩, ⟨e.e, 1, v.active e, fun _ => q.scale⟩]
        (q.flags ||| flagIf q.bad NV)

/-- With %rngmode 0, the noise source of the core on and no draw waiting in it, rand issues a result with the drawn word of each active lane (or its upper 24 bits over 2^24), and cvt.sr one with the FP32 element rounded by the low 24 bits of the drawn word; the draw is counted once, and but for it only the result, the IPs of the lanes and the issue count change. (The drawn words are free values, log 6.) (R240, R242, R243, R237) -/
def Sys2Proof.Machine.RandomDrawsIssueTheSourcesWords : Prop :=
  ∀ (e : Enc) (s : State) (v : View) (sr : Bool),
    let i := if sr then Instr.cvtSr e else Instr.rand e
    let x := v.at i e
    let w := fun lane => (Config.noise v.t.core s.drawn lane).toNat
    let r := fun lane => (Fmt.ofCode e.lo4).roundSr (w lane % 2 ^ 24) (Fmt.f32.value (x.slotElem 2 0 x.slotPair.1 lane))
    let val := fun lane => if sr then putSlot e.lo4 x.slotPair.2 (x.oldD lane) (r lane).1
      else if e.mod = 1 then unitFloat (w lane / 256) else w lane
    Runs i e s v → v.f.rngmode = 0 → (s.core v.t.core).noiseOn = true → (∀ d ∈ s.draws, d.core ≠ v.t.core) →
    ∃ t : State, exec i s = .next t ∧
      Owes { s with drawn := s.drawn + 1 } t v e [⟨e.d, 1, v.active e, val⟩]
        (if sr then orFlags ((lanesOf (v.active e)).map fun lane => (r lane).2) else 0)

/-- mxq issues a block and its scale, rand and cvt.sr draw from the noise source: the claims MxqIssuesABlockAndItsScale, RandomDrawsIssueTheSourcesWords together. (R104, R237, R238, R240, R242, R243) -/
def Obligations.QuantisationAndDrawsIssueTheirWords : Prop :=
  MxqIssuesABlockAndItsScale ∧ RandomDrawsIssueTheSourcesWords

/-! ## Control (R197 to R204) and system (R323 to R329) -/

namespace Sys2Proof.Machine

/-- The branches, calls and returns but for `calli`: whether D receives IP + 1, and the target of a lane (R198, R199). -/
def transferOf : Instr → Option (Enc × Bool × Bool)
  | .bra e => some (e, false, true)
  | .brx e => some (e, false, false)
  | .call e => some (e, true, true)
  | .ret e => some (e, false, false)
  | _ => none

/-- The target of a lane (R198): a literal, IP plus the signed immediate for a relative form, or the value of A. -/
def Iss.tgt (x : Iss) (relative : Bool) (lane : Nat) : Nat :=
  if x.e.hasLit = true ∧ x.pos = 2 then x.e.literal
  else if relative then (((x.v.ip.toNat : Int) + signed 19 x.e.a.imm) % 2 ^ 32).toNat
  else x.src 2 .u32 lane

/-- An IP lies in the code range of the kernel that a view's team runs (R199). -/
abbrev View.InCode (v : View) (ip : Nat) : Prop :=
  (v.l.kernelAt v.t.kernel).entry.toNat ≤ ip ∧
    ip < (v.l.kernelAt v.t.kernel).entry.toNat + (v.l.kernelAt v.t.kernel).count.toNat

/-- The lanes of ACTIVE stand where a function puts them, the other lanes of the path at IP + 1. -/
def Transfers (t : State) (v : View) (e : Enc) (tgt : Nat → Nat) : Prop :=
  Stands t v v.mask fun lane => if (v.active e).getLsbD lane = true then BitVec.ofNat 32 (tgt lane) else v.ip + 1

end Sys2Proof.Machine

/-- bra, brx, call and ret: when the target of every active lane lies in the code range, each active lane goes to its target, the other lanes of the path to IP + 1, call writes IP + 1 to D, and nothing else changes; when some target lies outside, badtarget (0x09) with FIELD 2, DETAIL 1 and exactly those lanes in MASK is raised and nothing else changes. (R198, R199, R53) -/
def Obligations.BranchesMoveTheirLanes : Prop :=
  ∀ (i : Instr) (e : Enc) (link relative : Bool) (s : State) (v : View), transferOf i = some (e, link, relative) →
    Runs i e s v → v.Clear e.d 1 →
    ((∀ lane, (v.active e).getLsbD lane = true → v.InCode ((v.at i e).tgt relative lane)) →
      ∃ t : State, exec i s = .next t ∧ OnlyRegs s t v ∧ Counted s t v e ∧ FlagsRaised t v 0 ∧
        Transfers t v e ((v.at i e).tgt relative) ∧
        Holds s t v (if link then [⟨e.d, 1, v.active e, fun _ => (v.ip + 1).toNat⟩] else [])) ∧
    ∀ bad : Mask, bad ≠ 0 →
      (∀ lane, lane < 32 → (bad.getLsbD lane = true ↔
        (v.active e).getLsbD lane = true ∧ ¬ v.InCode ((v.at i e).tgt relative lane))) →
      ∃ t : State, exec i s = .next t ∧ Traps s t v 9 2 1 bad 0

/-- When every active lane targets the code range, every target line is at hand, every target is an entry nop, its vector count is at most the window and its uniform count at most the allotment, calli writes IP + 1 to D, moves each active lane to its target, and changes nothing else but what the fetches change. (R199, R200) -/
def Sys2Proof.Machine.CalliChecksThenTransfers : Prop :=
  ∀ (e : Enc) (s s1 : State) (v : View) (rs : List (Nat × Fetch)) (k : Launch),
    let x := v.at (.calli e) e
    Runs (.calli e) e s v → v.Clear e.d 1 →
    (∀ lane, (v.active e).getLsbD lane = true → v.InCode (x.tgt false lane)) →
    x.fetchTargets (x.tgt false) (lanesOf (v.active e)) s = (rs, s1) → (∀ r ∈ rs, r.2 = Fetch.ok) →
    s1.launch? v.l.id = some k →
    (∀ lane, (v.active e).getLsbD lane = true →
      ∃ nv ns, entryCounts k (x.tgt false lane) = some (nv, ns) ∧ nv ≤ v.size ∧ ns ≤ v.f.allot) →
    ∃ t : State, exec (.calli e) s = .next t ∧ OnlyRegs s1 t v ∧ Counted s t v e ∧ Transfers t v e (x.tgt false) ∧
      Holds s1 t v [⟨e.d, 1, v.active e, fun _ => (v.ip + 1).toNat⟩]

/-- When every target lies in the code range and is at hand, calli traps with FIELD 2 and moves no lane: badtarget DETAIL 2 when some active lane targets no entry nop; otherwise callbudget (0x0A) DETAIL 1 when some entry declares more vector registers than the window; otherwise callbudget DETAIL 2 when some declares more uniform registers than the allotment; MASK holds the lanes that fail that check. (R200) -/
def Sys2Proof.Machine.CalliTrapsBeyondTheBudget : Prop :=
  ∀ (e : Enc) (s s1 : State) (v : View) (rs : List (Nat × Fetch)) (k : Launch) (bad : Mask),
    let x := v.at (.calli e) e
    let counts := fun lane => entryCounts k (x.tgt false lane)
    let fails := fun (p : Nat → Bool) => bad ≠ 0 ∧ ∀ lane, lane < 32 →
      (bad.getLsbD lane = true ↔ (v.active e).getLsbD lane = true ∧ p lane = true)
    let overV := fun lane => decide (v.size < ((counts lane).getD (0, 0)).1)
    let overS := fun lane => decide (v.f.allot < ((counts lane).getD (0, 0)).2)
    let all := fun (p : Nat → Bool) => ∀ lane, (v.active e).getLsbD lane = true → p lane = true
    Runs (.calli e) e s v →
    (∀ lane, (v.active e).getLsbD lane = true → v.InCode (x.tgt false lane)) →
    x.fetchTargets (x.tgt false) (lanesOf (v.active e)) s = (rs, s1) → (∀ r ∈ rs, r.2 = Fetch.ok) →
    s1.launch? v.l.id = some k →
    (fails (fun lane => (counts lane).isNone) → ∃ t : State, exec (.calli e) s = .next t ∧ Traps s t v 9 2 2 bad 0) ∧
    (all (fun lane => (counts lane).isSome) → fails overV → ∃ t : State, exec (.calli e) s = .next t ∧ Traps s t v 10 2 1 bad 0) ∧
    (all (fun lane => (counts lane).isSome) → all (fun lane => !overV lane) → fails overS →
      ∃ t : State, exec (.calli e) s = .next t ∧ Traps s t v 10 2 2 bad 0)

/-- calli transfers once every target is an entry nop within the budgets, and traps where one is not: the claims CalliChecksThenTransfers, CalliTrapsBeyondTheBudget together. (R199, R200) -/
def Obligations.CalliChecksItsTargets : Prop :=
  CalliChecksThenTransfers ∧ CalliTrapsBeyondTheBudget

/-- exit removes exactly the active lanes from the live mask; the other lanes of the path go to IP + 1; while a live lane is left the fibre stays in its state and memory is unchanged, and with none left the fibre is Ended; its registers and the pool of its team keep their values. (R54, R201) -/
def Obligations.ExitRemovesItsLanes : Prop :=
  ∀ (e : Enc) (s : State) (v : View), Runs (.exit e) e s v →
    ∃ (t : State) (f : Fibre), exec (.exit e) s = .next t ∧ t.fibre? v.f.id = some f ∧ f.live = v.f.live &&& ~~~ v.active e ∧
      f.uregs = v.f.uregs ∧ f.preds = v.f.preds ∧ (∀ k, t.poolWord v.t.id k = s.poolWord v.t.id k) ∧
      (f.live = 0 → f.run = .ended) ∧
      (f.live ≠ 0 → f.run = v.f.run ∧ t.mem = s.mem ∧ Stands t v (v.mask &&& ~~~ v.active e) fun _ => v.ip + 1)

/-- yield moves the lanes of its path to IP + 1 and leaves every register and all of memory unchanged; when another fibre of the slot is Ready, that fibre becomes current and the yielding one Ready, and when none is, nothing else changes. (R42, R48, R201) -/
def Sys2Proof.Machine.YieldPassesTheSlot : Prop :=
  ∀ (e : Enc) (s : State) (v : View), Runs (.yield e) e s v →
    ∃ t : State, exec (.yield e) s = .next t ∧ Stands t v v.mask (fun _ => v.ip + 1) ∧ Counted s t v e ∧ Holds s t v [] ∧ t.mem = s.mem ∧
      (∀ g, s.nextReady v.f v.t.perSlot = some g → g.id ≠ v.f.id →
        (t.core v.t.core).currentOf (v.t.slotOf v.f) = some g.id ∧ (t.fibre? v.f.id).map Fibre.run = some .ready ∧
          (t.fibre? g.id).map Fibre.run = some .current) ∧
      (s.nextReady v.f v.t.perSlot = none → OnlyRegs s t v)

/-- nop with MOD 0 and the entry nop with MOD 1 move the lanes of their path to IP + 1 and change no register, no flag and no memory. (R190, R201) -/
def Sys2Proof.Machine.NopOnlyAdvances : Prop :=
  ∀ (i : Instr) (e : Enc) (s : State) (v : View), i = .nop e ∨ i = .nopEntry e → Runs i e s v →
    ∃ t : State, exec i s = .next t ∧ Performs s t v e [] 0

/-- nap with a count n of 0 only moves its lanes on; with any other n the fibre is Parked until cycle t + n, its active lanes hold the IP and the others of the path go to IP + 1, and no register and no memory changes; the lapse of that cycle, and not before it, makes the fibre Ready or current with those lanes at their IP + 1. (R202) -/
def Sys2Proof.Machine.NapParksForItsCount : Prop :=
  (∀ (e : Enc) (s : State) (v : View), Runs (.nap e) e s v → (v.at (.nap e) e).src 2 .u32 0 = 0 →
    ∃ t : State, exec (.nap e) s = .next t ∧ Performs s t v e [] 0) ∧
  (∀ (e : Enc) (s : State) (v : View) (n : Nat), Runs (.nap e) e s v → (v.at (.nap e) e).src 2 .u32 0 = n → n ≠ 0 →
    ∃ (t : State) (f : Fibre), exec (.nap e) s = .next t ∧ t.fibre? v.f.id = some f ∧ f.run = .parked ∧ f.waits = .nap (s.now + n) (v.active e) ∧
      Stands t v (v.mask &&& ~~~ v.active e) (fun _ => v.ip + 1) ∧ Holds s t v [] ∧ t.mem = s.mem) ∧
  ∀ (s : State) (fid u : Nat) (lanes : Mask) (f : Fibre), s.fibre? fid = some f → f.waits = .nap u lanes →
    (s.now < u → exec (.napExpiry fid) s = .next s) ∧
    (u ≤ s.now → ∃ (t : State) (g : Fibre), exec (.napExpiry fid) s = .next t ∧ t.fibre? fid = some g ∧ (g.run = .ready ∨ g.run = .current) ∧
      g.waits = .none ∧ t.mem = s.mem ∧
      ∀ lane, lane < 32 → g.ip lane = if (lanes &&& f.live).getLsbD lane then f.ip lane + 1 else f.ip lane)

/-- yield passes the slot, nop only advances and nap parks for its count: the claims YieldPassesTheSlot, NopOnlyAdvances, NapParksForItsCount together. (R42, R48, R190, R201, R202) -/
def Obligations.YieldNopAndNapOnlyPassTime : Prop :=
  YieldPassesTheSlot ∧ NopOnlyAdvances ∧ NapParksForItsCount

/-- sgw of 1, 2, 4, 8, 16 or 32 sets %sgw of the fibre to it and changes nothing else; every instruction of a later issue step computes with the new width; sgw of any other value raises the illegal-operand trap with FIELD 2 and DETAIL 9 for the active lanes. (R203) -/
def Sys2Proof.Machine.SgwSetsTheSubGroupWidth : Prop :=
  (∀ (e : Enc) (s : State) (v : View) (w : Nat), Runs (.sgw e) e s v → (v.at (.sgw e) e).src 2 .u32 0 = w →
    (w ∈ [1, 2, 4, 8, 16, 32] → ∃ t : State, exec (.sgw e) s = .next t ∧
      Performs s t { v with f := { v.f with sgw := BitVec.ofNat 32 w } } e [] 0) ∧
    (w ∉ [1, 2, 4, 8, 16, 32] → ∃ t : State, exec (.sgw e) s = .next t ∧ Traps s t v 2 2 9 (v.active e) 0)) ∧
  ∀ (v : View) (o : Operand) (lane : Nat), v.patLane o lane = patLane o.pat.toNat o.arg.toNat v.f.sgw.toNat lane

/-- swr writes bits 4:0 of its source to %fpflags, or bits 1:0 to %rmode or %rngmode; no other register and no memory changes, and a write to %fpflags stands after the flags of every earlier instruction of the fibre. (R80, R82, R327) -/
def Sys2Proof.Machine.SwrWritesItsSpecialRegister : Prop :=
  ∀ (e : Enc) (s : State) (v : View), Runs (.swr e) e s v →
    let w := BitVec.ofNat 32 ((v.at (.swr e) e).src 2 .u32 0)
    ∃ t : State, exec (.swr e) s = .next t ∧ Holds s t v [] ∧ Stands t v v.mask (fun _ => v.ip + 1) ∧ Counted s t v e ∧
      (e.d.num = 19 → OnlyRegs { s with results := t.results } t v ∧ (t.fibre? v.f.id).map Fibre.fpflags = some (w &&& 31) ∧
        (∀ r ∈ t.results, r.fid = v.f.id → r.flags = 0) ∧ t.results.map Result.writes = s.results.map Result.writes) ∧
      (e.d.num = 20 → OnlyRegs s t { v with f := { v.f with rmode := w &&& 3 } } ∧ FlagsRaised t v 0) ∧
      (e.d.num = 22 → OnlyRegs s t { v with f := { v.f with rngmode := w &&& 3 } } ∧ FlagsRaised t v 0)

/-- sgw sets the sub-group width, swr the defined bits of its special register: the claims SgwSetsTheSubGroupWidth, SwrWritesItsSpecialRegister together. (R80, R82, R203, R327) -/
def Obligations.SpecialRegistersAreWritten : Prop :=
  SgwSetsTheSubGroupWidth ∧ SwrWritesItsSpecialRegister

/-- trap raises cause 0x16 and bkpt cause 0x17 with FIELD 0, DETAIL bits 15:0 of its source, and MASK the active lanes; no register, no lane and no memory changes. (R324, R417) -/
def Sys2Proof.Machine.TrapAndBreakpointRaiseTheirCause : Prop :=
  ∀ (i : Instr) (e : Enc) (cause : Nat) (s : State) (v : View),
    (i = .trap e ∧ cause = 0x16) ∨ (i = .bkpt e ∧ cause = 0x17) → Runs i e s v →
    ∃ t : State, exec i s = .next t ∧ Traps s t v cause 0 ((v.at i e).src 2 .u32 0 % 2 ^ 16) (v.active e) 0

/-- A trapped fibre with no result outstanding whose kernel handles the cause, outside the Handler state, enters it: the pre-trap live mask and IPs are saved, %trapinfo holds the trap, every live lane is ready at the handler IP, the fibre is Ready or current, and its registers, predicates, window and mode registers keep their values; memory does not change. (R83, R412, R414, R415) -/
def Sys2Proof.Machine.TrapEntrySavesAndJumps : Prop :=
  ∀ (s : State) (fid : Nat) (f : Fibre) (t : Team) (l : Launch) (p : TrapInfo), s.fibre? fid = some f → f.pending = some p →
    s.trapReady f = true → s.team? f.team = some t → s.launch? t.launch = some l → f.handler = false →
    (l.kernelAt t.kernel).handles p.cause.toNat = true →
    ∃ (u : State) (g : Fibre), exec (.trapEntry fid) s = .next u ∧ u.fibre? fid = some g ∧ g.handler = true ∧ g.pending = none ∧
      (g.run = .ready ∨ g.run = .current) ∧ g.trapinfo = p ∧ g.preLive = f.live ∧ g.preIps = f.ips ∧ g.live = f.live ∧
      g.waiting = 0 ∧ (∀ lane, f.live.getLsbD lane = true → g.ip lane = (l.kernelAt t.kernel).handlerIp) ∧
      g.uregs = f.uregs ∧ g.preds = f.preds ∧ g.winBase = f.winBase ∧ g.winSize = f.winSize ∧ g.sgw = f.sgw ∧
      g.fpflags = f.fpflags ∧ g.rmode = f.rmode ∧ g.rngmode = f.rngmode ∧ u.mem = s.mem

/-- A trapped fibre with no result outstanding ends a launch that has no outcome yet with status 2: in the Handler state with the code 0xC0000000 + (c << 16) + DETAIL, and otherwise, when the kernel does not handle the cause, with 0x80000000 + (c << 16) + DETAIL. (R414, R415, R329) -/
def Sys2Proof.Machine.UnhandledAndDoubleTrapsEndTheLaunch : Prop :=
  ∀ (s : State) (fid : Nat) (f : Fibre) (t : Team) (l : Launch) (p : TrapInfo), s.fibre? fid = some f → f.pending = some p →
    s.trapReady f = true → s.team? f.team = some t → s.launch? t.launch = some l → l.outcome = none →
    (f.handler = true → ∃ u : State, exec (.trapEntry fid) s = .next u ∧
      (u.launch? l.id).map Launch.outcome = some (some (2, BitVec.ofNat 32 (0xC0000000 + p.cause.toNat * 2 ^ 16 + p.detail.toNat)))) ∧
    (f.handler = false → (l.kernelAt t.kernel).handles p.cause.toNat = false → ∃ u : State, exec (.trapEntry fid) s = .next u ∧
      (u.launch? l.id).map Launch.outcome = some (some (2, BitVec.ofNat 32 (0x80000000 + p.cause.toNat * 2 ^ 16 + p.detail.toNat))))

/-- A trap enters the handler of its cause; an undelivered and a double trap end the launch: the claims TrapEntrySavesAndJumps, UnhandledAndDoubleTrapsEndTheLaunch together. (R83, R329, R412, R414, R415) -/
def Obligations.TrapsEnterTheHandlerOrEndTheLaunch : Prop :=
  TrapEntrySavesAndJumps ∧ UnhandledAndDoubleTrapsEndTheLaunch

/-- In the Handler state rtt.resume puts the lanes of the trap mask at the trapping IP + 1 and the other pre-trap lanes at their pre-trap IPs, rtt.retry puts all of them at their pre-trap IPs; both restore the live mask, clear %trapinfo and leave the Handler state with registers, predicates and memory unchanged; rtt.end ends the fibre. Outside the Handler state all three raise hstate (0x12) with DETAIL 1. (R325, R413) -/
def Sys2Proof.Machine.RttReturnsFromTheHandler : Prop :=
  (∀ (i : Instr) (e : Enc) (resume : Bool) (s : State) (v : View),
    (i = .rttResume e ∧ resume = true) ∨ (i = .rttRetry e ∧ resume = false) → Runs i e s v → v.f.handler = true →
    ∃ (t : State) (f : Fibre), exec i s = .next t ∧ t.fibre? v.f.id = some f ∧ f.handler = false ∧ f.live = v.f.preLive ∧
      (f.run = .ready ∨ f.run = .current) ∧ f.trapinfo = ⟨0, 0, 0, 0, 0, 0⟩ ∧ f.uregs = v.f.uregs ∧ f.preds = v.f.preds ∧
      t.mem = s.mem ∧ (∀ k, t.poolWord v.t.id k = s.poolWord v.t.id k) ∧
      ∀ lane, v.f.preLive.getLsbD lane = true → f.ip lane =
        if resume = true ∧ v.f.trapinfo.mask.getLsbD lane = true then v.f.trapinfo.ip + 1 else SMap.get 0 v.f.preIps lane) ∧
  (∀ (e : Enc) (s : State) (v : View), Runs (.rttEnd e) e s v → v.f.handler = true →
    ∃ (t : State) (f : Fibre), exec (.rttEnd e) s = .next t ∧ t.fibre? v.f.id = some f ∧ f.run = .ended ∧ f.live = 0 ∧ f.handler = false) ∧
  ∀ (i : Instr) (e : Enc) (s : State) (v : View), i = .rttResume e ∨ i = .rttRetry e ∨ i = .rttEnd e → Runs i e s v →
    v.f.handler = false → ∃ t : State, exec i s = .next t ∧ Traps s t v 0x12 0 1 v.mask 0

/-- trap and bkpt raise their cause, rtt returns from the handler: the claims TrapAndBreakpointRaiseTheirCause, RttReturnsFromTheHandler together. (R324, R325, R413, R417) -/
def Obligations.SoftwareTrapsAndReturns : Prop :=
  TrapAndBreakpointRaiseTheirCause ∧ RttReturnsFromTheHandler

/-- A firmware call of a service up to 255 whose earlier accesses have performed adds one call with the service and the eight argument registers and an outstanding result, and its lanes go to IP + 1; a service above 255 raises the illegal-operand trap with FIELD 2. halt gives a launch that has no outcome the status 2 and the code of its source, and changes nothing else of memory, of the registers and of the other launches, fibres and teams but the IPs of its lanes. (R328, R329) -/
def Obligations.FirmwareCallsAndHaltReachTheParser : Prop :=
  (∀ (i : Instr) (e : Enc) (s : State) (v : View),
    i = .fwcallEcho e ∨ i = .fwcallFeatureVector e ∨ i = .fwcallLog e ∨ i = .fwcallNoService e → Runs i e s v →
    s.arriveHold v.f = .free →
    ((v.at i e).src 2 .u32 0 ≤ 255 → ∃ (t : State) (c : FwCall), exec i s = .next t ∧ t.calls = s.calls ++ [c] ∧ c.fid = v.f.id ∧
      c.service = (v.at i e).src 2 .u32 0 ∧ c.dreg = e.d.num.toNat ∧
      c.args = (List.range 8).map (fun k => v.reg .uni (e.b.num.toNat + k) 0) ∧ t.outstanding v.f.id = true ∧
      Stands t v v.mask (fun _ => v.ip + 1) ∧ Holds s t v []) ∧
    (255 < (v.at i e).src 2 .u32 0 → ∃ t : State, exec i s = .next t ∧ Traps s t v 2 2 9 (v.active e) 0)) ∧
  ∀ (e : Enc) (s : State) (v : View), Runs (.halt e) e s v → v.l.outcome = none →
    ∃ t : State, exec (.halt e) s = .next t ∧ OnlyRegs { s with launches := t.launches } t v ∧ Holds s t v [] ∧
      Stands t v v.mask (fun _ => v.ip + 1) ∧
      (t.launch? v.l.id).map Launch.outcome = some (some (2, BitVec.ofNat 32 ((v.at (.halt e) e).src 2 .u32 0))) ∧
      ∀ k, k ≠ v.l.id → t.launch? k = s.launch? k

/-! ## Memory (R121 to R124, R142, R247 to R260) -/

namespace Sys2Proof.Machine

/-- What an instruction asks of global memory: it loads, its permission, its size code, its kind, order and element bits
(R247 to R249, R258 to R260). -/
structure Wants where
  loads : Bool
  perm : Perm
  code : Nat
  kind : MemKind
  order : Order
  nbits : Nat

/-- The instructions of global memory. -/
def globalAccess : Instr → Option (Enc × Wants)
  | .ld e => some (e, ⟨true, .read, e.lo4, .load, accessOrder true e.hi2, sizeBits e.lo4⟩)
  | .ldu e => some (e, ⟨true, .read, e.lo4, .load, accessOrder true e.hi2, sizeBits e.lo4⟩)
  | .st e => some (e, ⟨false, .write, e.lo4, .store, accessOrder false e.hi2, sizeBits e.lo4⟩)
  | .atom e => some (e, ⟨true, .atomic, if 2 ≤ e.hi2 then 5 else 4, atomKind e.lo4, atomOrder e.ext3, if 2 ≤ e.hi2 then 64 else 32⟩)
  | .red e => some (e, ⟨false, .atomic, if 2 ≤ e.hi2 then 5 else 4, atomKind e.lo4, atomOrder e.ext3, if 2 ≤ e.hi2 then 64 else 32⟩)
  | .xadd e => some (e, ⟨false, .atomic, 4,
      if e.mod = 0 then .xaddF else if e.rm = 5 then .xaddISat else .xaddI, atomOrder e.ext3, 32⟩)
  | _ => none

/-- The elements that the active lanes name: the index B times the stride, plus the offset C (R121, R247). -/
def Iss.named (x : Iss) (code : Nat) : List Elem :=
  (lanesOf x.act).map fun lane => (x.buf 2).at lane code (x.src 3 .u32 lane) (signed 32 (x.src 4 .i32 lane))

/-- The record in A is well formed and permits the access (R84, R85). -/
abbrev Iss.permits (x : Iss) (p : Perm) (flat : Bool) : Prop := (x.buf 2).bad flat = none ∧ (x.buf 2).denied p = none

/-- Every element is in bounds or may be out of them, below 2^57, and aligned to its size (R123, R124, R247). -/
abbrev Iss.sound (x : Iss) (code : Nat) : Prop :=
  ∀ el ∈ x.named code, (el.inb = false → (x.buf 2).oob ≠ 1) ∧
    (el.inb = true → el.reach < 2 ^ 57 ∧ (2 ≤ sizeBytes code → el.va % sizeBytes code = 0))

/-- The virtual lines of the elements in bounds, each once and rising (R124). -/
def Iss.vlines (x : Iss) (code : Nat) (data data2 : Nat → BitVec 128) : List VLine :=
  gatherLines (((x.named code).filter Elem.inb).flatMap fun el => el.pieces (data el.lane) (data2 el.lane))

end Sys2Proof.Machine

/-- ld, ldu, st, atom, red and xadd, when nothing holds them and no earlier access of the fibre is under way or in a side log, their record permits the access, every element is sound, some element is in bounds and every line translates: one operation with the kind, order, scope and active lanes joins the operations of the fibre, one request for each physical line of the elements in bounds joins the requests, a load or returning atomic leaves a result outstanding, the lanes go to IP + 1, and no register and no byte of memory changes. (R121, R123, R124, R142, R247, R248, R249, R250, R258, R259, R260) -/
def Obligations.GlobalAccessesSendTheirLines : Prop :=
  ∀ (i : Instr) (e : Enc) (w : Wants) (s s1 : State) (v : View) (ts : List (VLine × Trans)), globalAccess i = some (e, w) →
    let x := v.at i e
    Runs i e s v → (if w.order.releases = true then s.releaseHold v.f else s.accessHold v.f) = .free → s.pendingOps v.f.id = [] →
    (∀ y ∈ s.sideLog, y.fid ≠ v.f.id) → x.permits w.perm (sizeBytes w.code = 0) → x.sound w.code → (∃ el ∈ x.named w.code, el.inb = true) →
    (∀ data data2, (s.translateLines v.t.core v.l.ctx w.perm (x.vlines w.code data data2)).2 = s1 ∧
      ∀ p ∈ (s.translateLines v.t.core v.l.ctx w.perm (x.vlines w.code data data2)).1, ∃ pl, p.2 = .ok pl) →
    (∃ data data2, (s.translateLines v.t.core v.l.ctx w.perm (x.vlines w.code data data2)).1 = ts) →
    ∃ (t : State) (op : MemOp) (rs : List Req), exec i s = .next t ∧ t.ops = s.ops ++ [op] ∧ t.reqs = s.reqs ++ rs ∧
      op.fid = v.f.id ∧ op.kind = w.kind ∧ op.order = w.order ∧ op.scope = e.sc.toNat ∧ op.nbits = w.nbits ∧
      op.lanes = v.active e ∧ op.fence = false ∧ op.performed = false ∧
      (∀ el ∈ x.named w.code, op.zeros.getLsbD el.lane = !el.inb) ∧
      (∀ r ∈ rs, r.op = op.id ∧ r.state = .waiting) ∧
      (∀ key, (∃ r ∈ rs, r.line = key) ↔ ∃ p ∈ ts, ∃ pl, p.2 = .ok pl ∧ pl.key = key) ∧
      t.outstanding v.f.id = (s.outstanding v.f.id || w.loads) ∧
      t.mem = s1.mem ∧ Stands t v v.mask (fun _ => v.ip + 1) ∧ Holds s t v [] ∧ Counted s t v e

/-- ld, ldu, st, atom, red and xadd that nothing holds raise badbuf (0x03) when the record is malformed, bufperm (0x04) when it denies the access, bounds (0x07) for the lanes out of bounds of a trapping record, addrrange (0x06) for the lanes at 2^57 or beyond, misalign (0x05) with the size in DETAIL for the misaligned lanes, in this order; nothing else changes. (R84, R85, R123, R409, R410, R124) -/
def Obligations.FaultyGlobalAccessesTrap : Prop :=
  ∀ (i : Instr) (e : Enc) (w : Wants) (s : State) (v : View), globalAccess i = some (e, w) →
    let x := v.at i e
    let flat := decide (sizeBytes w.code = 0)
    let out := fun (el : Elem) => (x.buf 2).oob = 1 && !el.inb
    let far := fun (el : Elem) => el.inb && decide (2 ^ 57 ≤ el.reach)
    let odd := fun (el : Elem) => el.inb && decide (2 ≤ sizeBytes w.code) && decide (el.va % sizeBytes w.code ≠ 0)
    let detail := if w.perm = .read then 1 else if w.perm = .write then 2 else 3
    Runs i e s v → (if w.order.releases = true then s.releaseHold v.f else s.accessHold v.f) = .free →
    (∀ d, (x.buf 2).bad flat = some d → ∃ t : State, exec i s = .next t ∧ Traps s t v 3 2 d (v.active e) 0) ∧
    (∀ d, (x.buf 2).bad flat = none → (x.buf 2).denied w.perm = some d →
      ∃ t : State, exec i s = .next t ∧ Traps s t v 4 2 d (v.active e) 0) ∧
    (x.permits w.perm flat → elemMask (x.named w.code) out ≠ 0 → ∃ t : State, exec i s = .next t ∧
      Traps s t v 7 0 detail (elemMask (x.named w.code) out) (elemOffset (x.named w.code) out)) ∧
    (x.permits w.perm flat → elemMask (x.named w.code) out = 0 → elemMask (x.named w.code) far ≠ 0 →
      ∃ t : State, exec i s = .next t ∧ Traps s t v 6 0 0 (elemMask (x.named w.code) far) 0) ∧
    (x.permits w.perm flat → elemMask (x.named w.code) out = 0 → elemMask (x.named w.code) far = 0 →
      elemMask (x.named w.code) odd ≠ 0 → ∃ t : State, exec i s = .next t ∧
        Traps s t v 5 0 (sizeBytes w.code) (elemMask (x.named w.code) odd) 0)

/-- A sent request of a strong store at die scope or wider with one piece of whole bytes, on a line that no L1, accumulator or lost-line entry touches: HOME_SLICE_REQUEST completes, the bytes from the storage key of the piece read as the stored value, little-endian, and every other byte of memory reads as before. (R115, R143, R147, R6) -/
def Obligations.StoreAtHomeWritesItsBytesAlone : Prop :=
  ∀ (s : State) (r n : Nat) (q : Req) (o : MemOp) (g : Seg), s.req? r = some q → s.ownerOp q = some o → q.state = .sent →
    q.segs = [g] → o.kind = .store → o.order ≠ .weak → 1 ≤ o.scope → o.tag = false → g.bit = 0 → g.eltBit = 0 → g.nbits = 8 * n → 0 < n →
    s.lostLine q.line = false → s.exacts = [] → (∀ c : Nat, (s.core c).l1 = []) →
    ∃ t : State, exec (.homeSliceRequest r) s = .next t ∧
      (∀ k, k < n → Memory.read t.mem (g.key + k) = BitVec.ofNat 8 (g.data.toNat / 2 ^ (8 * k))) ∧
      ∀ a, (a < g.key ∨ g.key + n ≤ a) → Memory.read t.mem a = Memory.read s.mem a

/-- A fibre comes to a barrier whose arrival is a release at die scope or wider: `cbar` (9) or `tcommit` (10) (R156). -/
def Sys2Proof.Machine.Fibre.Comes (f : Fibre) : Bool :=
  match f.waits with
  | .coming which _ => decide (which = 9 ∨ which = 10)
  | _ => false

/-- LOAD_RESPONSE for a performed operation with a vector destination of one word, in a fibre with no hazard that does not come to cbar or tcommit, and a team with no uncorrectable unit: each lane of the operation reads the loaded value, or zero where it was out of bounds, every other register of the fibre is as before, the operation and its result are outstanding no more, and memory does not change. (R46, R123, R250) -/
def Sys2Proof.Machine.LoadResponseWritesItsDestination : Prop :=
  ∀ (s : State) (op r : Nat) (o : MemOp) (f : Fibre) (t : Team), s.ops.find? (fun o => o.id == op) = some o → o.result = some r →
    o.performed = true → o.dcls = .vec → o.words = 1 → s.fibre? o.fid = some f → s.team? f.team = some t → f.hazards = [] → t.bad = [] → f.Comes = false →
    ∃ u : State, exec (.loadResponse op) s = .next u ∧ u.mem = s.mem ∧ u.ops = s.ops.filter (fun p => p.id != op) ∧
      (∀ x ∈ u.results, x.id ≠ r) ∧
      (∀ lane, lane < 32 → o.lanes.getLsbD lane = true → u.cell o.fid .vec o.dreg lane =
        BitVec.ofNat 32 (if o.zeros.getLsbD lane = true then 0 else s.loaded o lane)) ∧
      ∀ cls q lane, lane < 32 → ¬ (cls = .vec ∧ q = o.dreg ∧ o.lanes.getLsbD lane = true) →
        u.cell o.fid cls q lane = s.cell o.fid cls q lane

/-- RESULT_WRITEBACK for a known result with one vector register to write, in a fibre with no hazard that does not come to cbar or tcommit, and a team with no uncorrectable unit: the lanes of the write hold their values, its flags are raised, every other register is as before, the result is gone, and memory does not change. (R46, R47, R82) -/
def Sys2Proof.Machine.ResultWritebackPerformsItsWrites : Prop :=
  ∀ (s : State) (r : Nat) (x : Result) (w : RegWrite) (f : Fibre) (t : Team), s.results.find? (fun x => x.id == r) = some x →
    x.known = true → x.writes = [w] → w.cls = .vec → s.fibre? x.fid = some f → s.team? f.team = some t → f.hazards = [] → t.bad = [] → f.Comes = false →
    ∃ (u : State) (g : Fibre), exec (.resultWriteback r) s = .next u ∧ u.mem = s.mem ∧ (∀ y ∈ u.results, y.id ≠ r) ∧
      u.fibre? x.fid = some g ∧ g.fpflags = f.fpflags ||| BitVec.ofNat 32 x.flags.toNat ∧
      (∀ lane, lane < 32 → w.lanes.getLsbD lane = true → u.cell x.fid .vec w.reg lane = SMap.get 0 w.vals lane) ∧
      ∀ cls q lane, lane < 32 → ¬ (cls = .vec ∧ q = w.reg ∧ w.lanes.getLsbD lane = true) →
        u.cell x.fid cls q lane = s.cell x.fid cls q lane

/-- A load response and a result writeback write their destinations and nothing else: the claims LoadResponseWritesItsDestination, ResultWritebackPerformsItsWrites together. (R46, R47, R82, R123, R250) -/
def Obligations.ResultsWriteTheirDestinations : Prop :=
  LoadResponseWritesItsDestination ∧ ResultWritebackPerformsItsWrites

/-- REQUEST_DISPATCH marks a waiting request as sent in this cycle exactly when it finds a slot and its order lets it leave; one for another package puts a packet on the wire; but for the stream detector nothing else changes; a sent request to another package that has waited fewer than 2^26 cycles does not time out, and one that has waited them raises dataerr (0x15) with DETAIL 13 in a fibre that holds no trap and has not ended. (R131, R143, R148, R471) -/
def Obligations.RequestsLeaveForTheirSlices : Prop :=
  (∀ (s : State) (r : Nat) (q : Req) (o : MemOp), s.req? r = some q → s.ownerOp q = some o →
    (s.canDispatch q = true → ∃ (t : State) (p : Req), exec (.requestDispatch r) s = .next t ∧ t.req? r = some p ∧ p.state = .sent ∧ p.sentAt = s.now ∧
      p.op = q.op ∧ p.line = q.line ∧ p.bank = q.bank ∧ p.segs = q.segs ∧ (∀ n, n ≠ r → t.req? n = s.req? n) ∧
      (pkgOfKey q.line = s.pkg.pkgNo → t.wire = s.wire) ∧ (pkgOfKey q.line ≠ s.pkg.pkgNo → ∃ x, t.wire = s.wire ++ [x]) ∧
      { t with reqs := s.reqs, streams := s.streams, wire := s.wire } = s) ∧
    (s.canDispatch q = false → exec (.requestDispatch r) s = .next s)) ∧
  ∀ (s : State) (r : Nat) (q : Req) (o : MemOp) (f : Fibre), s.req? r = some q → s.ownerOp q = some o → q.state = .sent →
    pkgOfKey q.line ≠ s.pkg.pkgNo → s.fibre? o.fid = some f → f.run ≠ .ended → f.pending = none →
    (s.now < q.sentAt + 2 ^ 26 → exec (.remoteTimeout r) s = .next s) ∧
    (q.sentAt + 2 ^ 26 ≤ s.now → ∃ (t : State) (g : Fibre) (p : TrapInfo), exec (.remoteTimeout r) s = .next t ∧ t.fibre? o.fid = some g ∧ g.pending = some p ∧
      p.cause = 0x15 ∧ p.detail = 13 ∧ p.ip = o.ip ∧ p.mask = maskOf (q.segs.map Seg.lane))

namespace Sys2Proof.Machine

/-- The scratchpad instructions: the rank field, address field and offset field, and the bytes of an element (R251, R252). -/
def spadAccess : Instr → Option (Enc × Bool × Option Nat × Nat × Nat)
  | .lds e => some (e, true, none, 2, 3)
  | .ldc e => some (e, true, some 2, 3, 4)
  | .sts e => some (e, false, none, 2, 3)
  | .stc e => some (e, false, some 2, 3, 4)
  | _ => none

/-- The team whose scratchpad a lane accesses: its own, or that of the rank it names (R252). -/
def Iss.spTeam (x : Iss) (rk : Option Nat) (lane : Nat) : Team :=
  match x.rank rk lane with
  | some k => x.v.rankTeam k
  | none => x.v.t

/-- The scratchpad offset of a lane (R252). -/
def Iss.spOff (x : Iss) (addr off lane : Nat) : Int := (x.src addr .u32 lane : Nat) + signed 32 (x.src off .i32 lane)

/-- The access of a lane to z bytes: its rank exists, its bytes lie in the scratchpad, it is aligned (R252), and no word
that it touches is uncorrectable (R464). -/
abbrev Iss.spSound (x : Iss) (rk : Option Nat) (addr off z lane : Nat) : Prop :=
  (x.rank rk lane).getD 0 < x.v.ranks ∧ 0 ≤ x.spOff addr off lane ∧
    x.spOff addr off lane + z ≤ (x.spTeam rk lane).scratch ∧ x.spOff addr off lane % z = 0 ∧
    ((x.v.s.team? (x.spTeam rk lane).id).map fun t => t.badWords (x.spOff addr off lane).toNat z).getD false = false

/-- n bytes of a team's scratchpad from an offset, the lowest first. -/
def State.spadAt (s : State) (team off n : Nat) : Nat := ((s.team? team).map fun t => spadRead t.spad off n).getD 0

end Sys2Proof.Machine

/-- lds and ldc, when nothing holds them and the access of every active lane is sound, issue a result of variable latency with the little-endian bytes at the offset of the lane in the scratchpad of its own team or of the named rank, sign-extended for the signed sizes; nothing else changes. (R247, R251, R252) -/
def Sys2Proof.Machine.ScratchpadLoadsIssueTheirBytes : Prop :=
  ∀ (i : Instr) (e : Enc) (rk : Option Nat) (addr off : Nat) (s : State) (v : View), spadAccess i = some (e, true, rk, addr, off) →
    let x := v.at i e
    let z := sizeBytes e.lo4
    Runs i e s v → s.accessHold v.f = .free → (∀ lane, (v.active e).getLsbD lane = true → x.spSound rk addr off z lane) →
    ∃ (t : State) (val : Nat → Nat), exec i s = .next t ∧ Owes s t v e [⟨e.d, sizeWords e.lo4, v.active e, val⟩] 0 ∧
      ∀ lane, (v.active e).getLsbD lane = true →
        let raw := s.spadAt (x.spTeam rk lane).id (x.spOff addr off lane).toNat z
        val lane = if e.lo4 = 1 ∨ e.lo4 = 3 then (signed (8 * z) raw % 2 ^ 32).toNat else raw

/-- sts and stc, when nothing holds them and the access of every active lane is sound, write the data of each active lane at its offset in the scratchpad of its own team or of the named rank, the bytes of the highest lane standing where lanes overlap; every other byte of every scratchpad, every register and all of memory is unchanged. (R147, R251, R252) -/
def Sys2Proof.Machine.ScratchpadStoresWriteTheirBytesAlone : Prop :=
  ∀ (i : Instr) (e : Enc) (rk : Option Nat) (addr off : Nat) (s : State) (v : View), spadAccess i = some (e, false, rk, addr, off) →
    let x := v.at i e
    let z := sizeBytes e.lo4
    let covers := fun (lane team a : Nat) => (v.active e).getLsbD lane = true ∧ (x.spTeam rk lane).id = team ∧
      (x.spOff addr off lane).toNat ≤ a ∧ a < (x.spOff addr off lane).toNat + z
    Runs i e s v → s.accessHold v.f = .free → (∀ lane, (v.active e).getLsbD lane = true → x.spSound rk addr off z lane) →
    ∃ t : State, exec i s = .next t ∧ t.mem = s.mem ∧ Stands t v v.mask (fun _ => v.ip + 1) ∧ Holds s t v [] ∧ Counted s t v e ∧
      (∀ team a, (∀ lane, ¬ covers lane team a) → t.spadAt team a 1 = s.spadAt team a 1) ∧
      ∀ lane team a, covers lane team a → (∀ j, lane < j → ¬ covers j team a) → (s.team? team).isSome = true →
        t.spadAt team a 1 =
          v.regs e.d.cls e.d.num.toNat lane (sizeWords e.lo4) / 2 ^ (8 * (a - (x.spOff addr off lane).toNat)) % 2 ^ 8

/-- lds and sts that nothing holds raise spadbounds (0x08) with DETAIL 1 for the active lanes whose bytes lie outside the scratchpad of the team, and otherwise misalign (0x05) with the element size in DETAIL for the misaligned lanes; no register, no scratchpad and no memory changes. (R252, R409) -/
def Sys2Proof.Machine.ScratchpadAccessesOutOfBoundsTrap : Prop :=
  ∀ (i : Instr) (e : Enc) (load : Bool) (s : State) (v : View), spadAccess i = some (e, load, none, 2, 3) →
    let x := v.at i e
    let z := sizeBytes e.lo4
    let out := fun lane => x.spOff 2 3 lane < 0 ∨ (v.t.scratch : Int) < x.spOff 2 3 lane + z
    Runs i e s v → s.accessHold v.f = .free →
    (∀ bad : Mask, bad ≠ 0 → (∀ lane, lane < 32 → (bad.getLsbD lane = true ↔ (v.active e).getLsbD lane = true ∧ out lane)) →
      ∃ (t : State) (off : Nat), exec i s = .next t ∧ Traps s t v 8 0 1 bad off) ∧
    ((∀ lane, (v.active e).getLsbD lane = true → ¬ out lane) → ∀ bad : Mask, bad ≠ 0 →
      (∀ lane, lane < 32 → (bad.getLsbD lane = true ↔ (v.active e).getLsbD lane = true ∧ x.spOff 2 3 lane % z ≠ 0)) →
      ∃ t : State, exec i s = .next t ∧ Traps s t v 5 0 z bad 0)

/-- A relaxed atoms or reds of one active lane with a sound access, when nothing holds it and no core-scope release fence of the fibre is to be promoted, replaces the element at its offset by the value that the operation makes of the old element and the data; every byte of that scratchpad outside the element, every register and all of memory is unchanged; atoms leaves a result with the old element outstanding, reds none. (R258, R259) -/
def Sys2Proof.Machine.ScratchpadAtomicsReadAndWriteInOnePlace : Prop :=
  ∀ (i : Instr) (e : Enc) (returns : Bool) (lane : Nat) (s : State) (v : View),
    (i = .atoms e ∧ returns = true) ∨ (i = .reds e ∧ returns = false) →
    let x := v.at i e
    let n := if 2 ≤ e.hi2 then 64 else 32
    let o := (x.spOff 3 4 lane).toNat
    let team := (x.spTeam (some 2) lane).id
    let old := s.spadAt team o (n / 8)
    let d := x.src 5 ⟨32 * e.atomData, 32 * e.atomData, false, false⟩ lane
    Runs i e s v → v.active e = BitVec.ofNat 32 (2 ^ lane) → lane < 32 → atomOrder e.ext3 = .relaxed → s.strongHold v.f = .free →
    (v.f.coreFence = true → ∀ c : Nat, (s.core c).l1 = []) → (s.team? team).isSome = true → x.spSound (some 2) 3 4 (n / 8) lane →
    ∃ t : State, exec i s = .next t ∧ t.mem = s.mem ∧ Stands t v v.mask (fun _ => v.ip + 1) ∧ Holds s t v [] ∧ Counted s t v e ∧
      t.spadAt team o (n / 8) = atomNew (atomKind e.lo4) (decide (e.hi2 % 2 = 1)) n old (d % 2 ^ n)
        (if e.lo4 = 8 then d / 2 ^ n else 0) % 2 ^ n ∧
      (∀ k a, (k ≠ team ∨ a < o ∨ o + n / 8 ≤ a) → t.spadAt k a 1 = s.spadAt k a 1) ∧
      (returns = false → t.results = s.results) ∧
      (returns = true → ∃ r, t.results = s.results ++ [r] ∧ r.fid = v.f.id ∧ r.known = true ∧
        ∀ w, w < e.atomWords → ∃ y, r.writes[w]? = some y ∧ y.Is v ⟨e.d, e.atomWords, v.active e, fun _ => old⟩ w)

/-- Scratchpad loads, stores and atomics read and write the bytes that their lanes name, or trap: the claims ScratchpadLoadsIssueTheirBytes, ScratchpadStoresWriteTheirBytesAlone, ScratchpadAccessesOutOfBoundsTrap, ScratchpadAtomicsReadAndWriteInOnePlace together. (R147, R247, R251, R252, R258, R259, R409) -/
def Obligations.ScratchpadAccessesReadAndWriteTheirBytes : Prop :=
  ScratchpadLoadsIssueTheirBytes ∧ ScratchpadStoresWriteTheirBytesAlone ∧ ScratchpadAccessesOutOfBoundsTrap ∧ ScratchpadAtomicsReadAndWriteInOnePlace

/-- ldfe and stfe of one active lane on a word of the own scratchpad that no lane waits for, in a core with an empty L1 and nothing held: ldfe of a full word empties it and issues its value, stfe of an empty word writes the data and fills it, and the lane goes to IP + 1; ldfe of an empty and stfe of a full word leave the word, keep the lane at the IP and make it wait as the last of the queue of the word. (R157, R253, R254) -/
def Sys2Proof.Machine.FullEmptyWordsPassOnce : Prop :=
  ∀ (i : Instr) (e : Enc) (load : Bool) (lane w : Nat) (s : State) (v : View),
    (i = .ldfe e ∧ load = true) ∨ (i = .stfe e ∧ load = false) →
    let x := v.at i e
    Runs i e s v → v.active e = BitVec.ofNat 32 (2 ^ lane) → lane < 32 → e.a.cls = .none →
    x.spOff 3 4 lane = 4 * w → 4 * w + 4 ≤ v.t.scratch →
    s.arriveHold v.f = .free → (s.core v.t.core).l1 = [] → v.t.feq = [] → (∀ u ∈ s.teams, u.feq = []) →
    (v.f.waiting = 0 ∧ v.f.reserved = 0) →
    ∃ (t : State) (u : Team) (f : Fibre), exec i s = .next t ∧ t.team? v.t.id = some u ∧ t.fibre? v.f.id = some f ∧ t.mem = s.mem ∧ Holds s t v [] ∧
      (SMap.get false v.t.fe w = load → SMap.get false u.fe w = (!load) ∧ u.feq = [] ∧ f.waiting = 0 ∧
        Stands t v v.mask (fun _ => v.ip + 1) ∧
        spadRead u.spad (4 * w) 4 =
          (if load then spadRead v.t.spad (4 * w) 4 else (v.reg e.d.cls e.d.num.toNat lane).toNat) ∧
        (load = true → ∃ r, t.results = s.results ++ [r] ∧ r.fid = v.f.id ∧
          ∃ y, r.writes[0]? = some y ∧ y.Is v ⟨e.d, 1, v.active e, fun _ => spadRead v.t.spad (4 * w) 4⟩ 0)) ∧
      (SMap.get false v.t.fe w ≠ load → u.fe = v.t.fe ∧ u.spad = v.t.spad ∧ u.feq = [⟨w, v.f.id, lane, load, false, v.f.handler⟩] ∧
        f.waiting = v.active e ∧ Stands t v (v.mask &&& ~~~ v.active e) fun _ => v.ip + 1)

/-- fset.empty and fset.full of one active lane on a word of the own scratchpad whose queue is empty set its bit to empty or full, move the lanes of the path to IP + 1 and change no register, no scratchpad byte and no memory. (R254) -/
def Sys2Proof.Machine.FsetSetsTheBitsOfItsWords : Prop :=
  ∀ (i : Instr) (e : Enc) (full : Bool) (lane w : Nat) (s : State) (v : View),
    (i = .fsetFull e ∧ full = true) ∨ (i = .fsetEmpty e ∧ full = false) →
    let x := v.at i e
    Runs i e s v → v.active e = BitVec.ofNat 32 (2 ^ lane) → lane < 32 → e.a.cls = .none →
    x.spOff 3 4 lane = 4 * w → 4 * w + 4 ≤ v.t.scratch → s.strongHold v.f = .free → v.t.feq = [] →
    ∃ (t : State) (u : Team), exec i s = .next t ∧ t.team? v.t.id = some u ∧ t.mem = s.mem ∧ Holds s t v [] ∧ Stands t v v.mask (fun _ => v.ip + 1) ∧
      u.spad = v.t.spad ∧ ∀ k, SMap.get false u.fe k = if k = w then full else SMap.get false v.t.fe k

/-- ldfe and stfe pass a word from full to empty and back, fset sets its bit: the claims FullEmptyWordsPassOnce, FsetSetsTheBitsOfItsWords together. (R157, R253, R254) -/
def Obligations.FullEmptyInstructionsPassTheirWords : Prop :=
  FullEmptyWordsPassOnce ∧ FsetSetsTheBitsOfItsWords

/-- On buffer b up to 15 of the team with nothing held and no draw waiting in the core: cbcfg with operands in range and the buffer idle sets base, size and count with every slot free; cbtake with a filled slot and cbtake.fill with a free one issue the offset of slot RP or WP and count it taken or claimed; cbgive of a taken slot frees it; cbgive.fill marks the oldest claimed slot filled; without such a slot the takes park at their IP. No byte of memory changes and no register of the fibre but by the result. (R135, R255) -/
def Obligations.CircularBuffersCountTheirSlots : Prop :=
  (∀ (e : Enc) (s : State) (v : View),
    let x := v.at (.cbcfg e) e
    let b := x.u32 2
    let base := x.u32 3
    let sz := x.u32 4
    let ns := x.u32 5
    Runs (.cbcfg e) e s v → b ≤ 15 → base % 16 = 0 → sz % 16 = 0 → 16 ≤ sz → sz ≤ 65520 → 1 ≤ ns → ns ≤ 255 →
    base + ns * sz ≤ v.t.scratch → SMap.get CBuf.blank v.t.cbufs b = CBuf.blank → (∀ d ∈ s.draws, d.core ≠ v.t.core) →
    ∃ (t : State) (u : Team), exec (.cbcfg e) s = .next t ∧ t.team? v.t.id = some u ∧ t.mem = s.mem ∧ Stands t v v.mask (fun _ => v.ip + 1) ∧ Holds s t v [] ∧
      SMap.get CBuf.blank u.cbufs b = ⟨base, sz / 16, ns, 0, 0, 0, ns, 0, []⟩) ∧
  (∀ (i : Instr) (e : Enc) (fill : Bool) (s : State) (v : View), (i = .cbtake e ∧ fill = false) ∨ (i = .cbtakeFill e ∧ fill = true) →
    let x := v.at i e
    let b := x.u32 2
    let c := SMap.get CBuf.blank v.t.cbufs b
    Runs i e s v → s.accessHold v.f = .free → b ≤ 15 → c.ns ≠ 0 → (∀ d ∈ s.draws, d.core ≠ v.t.core) →
    ((if fill then c.free else c.filled) ≠ 0 → ∃ (t : State) (u : Team) (r : Result), exec i s = .next t ∧ t.team? v.t.id = some u ∧ t.mem = s.mem ∧
      Stands t v v.mask (fun _ => v.ip + 1) ∧ Holds s t v [] ∧ t.results = s.results ++ [r] ∧ r.fid = v.f.id ∧
      (∃ y, r.writes[0]? = some y ∧ y.Is v ⟨e.d, 1, v.active e, fun _ => c.base + 16 * c.sz * (if fill then c.wp else c.rp)⟩ 0) ∧
      SMap.get CBuf.blank u.cbufs b =
        if fill then { c with free := c.free - 1, wp := (c.wp + 1) % c.ns, claims := c.claims ++ [(c.wp, false)] }
        else { c with filled := c.filled - 1, rp := (c.rp + 1) % c.ns }) ∧
    ((if fill then c.free else c.filled) = 0 → ∃ (t : State) (f : Fibre), exec i s = .next t ∧ t.fibre? v.f.id = some f ∧ f.run = .parked ∧
      f.waits = .cb b ∧ t.mem = s.mem ∧ Stands t v (v.mask &&& ~~~ v.active e) fun _ => v.ip + 1)) ∧
  (∀ (e : Enc) (s : State) (v : View),
    let b := (v.at (.cbgive e) e).u32 2
    let c := SMap.get CBuf.blank v.t.cbufs b
    Runs (.cbgive e) e s v → s.arriveHold v.f 0 = .free → b ≤ 15 → c.ns ≠ 0 → (∀ d ∈ s.draws, d.core ≠ v.t.core) →
    (c.rp ≠ c.gp ∨ c.filled + c.free ≠ c.ns → ∃ (t : State) (u : Team), exec (.cbgive e) s = .next t ∧ t.team? v.t.id = some u ∧ t.mem = s.mem ∧
      Stands t v v.mask (fun _ => v.ip + 1) ∧ Holds s t v [] ∧
      SMap.get CBuf.blank u.cbufs b = { c with free := c.free + 1, gp := (c.gp + 1) % c.ns }) ∧
    (c.rp = c.gp → c.filled + c.free = c.ns → ∃ t : State, exec (.cbgive e) s = .next t ∧ Traps s t v 13 0 2 (v.active e) 0)) ∧
  ∀ (e : Enc) (s : State) (v : View) (k : Nat),
    let b := (v.at (.cbgiveFill e) e).u32 2
    let c := SMap.get CBuf.blank v.t.cbufs b
    Runs (.cbgiveFill e) e s v → s.releaseHold v.f = .free → s.pendingOps v.f.id = [] → b ≤ 15 → c.ns ≠ 0 → c.claims = [(k, false)] →
    (∀ d ∈ s.draws, d.core ≠ v.t.core) →
    ∃ (t : State) (u : Team), exec (.cbgiveFill e) s = .next t ∧ t.team? v.t.id = some u ∧ t.mem = s.mem ∧ Stands t v v.mask (fun _ => v.ip + 1) ∧ Holds s t v [] ∧
      SMap.get CBuf.blank u.cbufs b = { c with claims := [], filled := c.filled + 1 }

/-! ## Caches, fences, barriers, waits and windows (R118, R133, R150, R164, R256, R257, R261 to R269) -/

namespace Sys2Proof.Machine

/-- Lanes of an instruction go on, and no register changes. -/
structure GoesOn (s t : State) (v : View) (e : Enc) : Prop where
  ips : Stands t v v.mask fun _ => v.ip + 1
  regs : Holds s t v []
  counted : Counted s t v e

/-- The fibre has left Current for a state with a wait; its active lanes hold the IP, the others of the path go to IP + 1. -/
structure Waiting (s t : State) (v : View) (e : Enc) (run : Run) (w : Waits) : Prop where
  fibre : ∃ f, t.fibre? v.f.id = some f ∧ f.run = run ∧ f.waits = w
  ips : Stands t v (v.mask &&& ~~~ v.active e) fun _ => v.ip + 1
  regs : Holds s t v []

end Sys2Proof.Machine

/-- With nothing held and no earlier access of the fibre under way: cinv.all leaves the L1 of the core empty, cwb.all leaves no dirty byte in it, cinv and cwb with a well-formed record leave each named line absent from the L1 or without dirty bytes; pf.l2 and pf.l1 with a well-formed record complete too, and with a record without PRD they change nothing but the IPs of their lanes; none of them writes a register. (R117, R118, R133, R256, R257) -/
def Obligations.CacheFormsCleanTheirLines : Prop :=
  (∀ (i : Instr) (e : Enc) (s : State) (v : View), i = .cinvAll e ∨ i = .cwbAll e → Runs i e s v → s.accessHold v.f = .free →
    s.pendingOps v.f.id = [] → ∃ t : State, exec i s = .next t ∧ GoesOn s t v e ∧ (i = .cinvAll e → (t.core v.t.core).l1 = []) ∧
      ∀ x ∈ (t.core v.t.core).l1, x.dirty = 0) ∧
  (∀ (i : Instr) (e : Enc) (s : State) (v : View), i = .cinv e ∨ i = .cwb e → Runs i e s v → s.accessHold v.f = .free →
    s.pendingOps v.f.id = [] → ((v.at i e).buf 2).bad false = none → ∃ t : State, exec i s = .next t ∧ GoesOn s t v e ∧
      ∀ p ∈ ((v.at i e).namedLines .any ((v.at i e).buf 2) s).1, ∀ x, (t.core v.t.core).l1Line? p.1.key = some x →
        i = .cwb e ∧ x.dirty = 0) ∧
  ∀ (i : Instr) (e : Enc) (s : State) (v : View), i = .pfL2 e ∨ i = .pfL1 e → Runs i e s v → s.accessHold v.f = .free →
    ((v.at i e).buf 2).bad false = none → ∃ t : State, exec i s = .next t ∧ GoesOn s t v e ∧
      (((v.at i e).buf 2).prd = false → Performs s t v e [] 0)

/-- fence.acq, fence.rel and fence.ar of a fibre with no operation, side-log entry or stack store under way perform at issue: at die scope or wider a releasing fence leaves no dirty byte in the L1 and an acquiring one leaves it empty. With an earlier load under way the fence joins the operations and stays unperformed. qfence adds a queue fence with its mask and the operations that it names. The lanes go to IP + 1 and no register changes. (R118, R148, R149, R150, R164, R261, R262) -/
def Obligations.FencesPerformAfterWhatTheyOrder : Prop :=
  (∀ (i : Instr) (e : Enc) (rel acq : Bool) (s : State) (v : View),
    (i = .fenceAcq e ∧ rel = false ∧ acq = true) ∨ (i = .fenceRel e ∧ rel = true ∧ acq = false) ∨
      (i = .fenceAr e ∧ rel = true ∧ acq = true) → Runs i e s v →
    (s.pendingOps v.f.id = [] → s.ownLog v.f.id = [] → (∀ b, s.stackPending v.f.id b = false) →
      ∃ t : State, exec i s = .next t ∧ GoesOn s t v e ∧ t.pendingOps v.f.id = [] ∧
        (1 ≤ e.sc.toNat → rel = true → ∀ x ∈ (t.core v.t.core).l1, x.dirty = 0) ∧
        (1 ≤ e.sc.toNat → acq = true → (t.core v.t.core).l1 = [])) ∧
    (∀ o, s.pendingOps v.f.id = [o] → o.kind = .load → o.fence = false → o.id < s.nextId → s.reqsDone o.id = false →
      s.ownLog v.f.id = [] →
      ∃ (t : State) (p : MemOp), exec i s = .next t ∧ GoesOn s t v e ∧ t.ops = s.ops ++ [p] ∧ p.fid = v.f.id ∧ p.fence = true ∧ p.performed = false ∧
        p.scope = e.sc.toNat ∧ p.order.releases = rel ∧ p.order.acquires = acq ∧ t.mem = s.mem)) ∧
  ∀ (e : Enc) (s : State) (v : View), Runs (.qfence e) e s v →
    ∃ (t : State) (u : Team), exec (.qfence e) s = .next t ∧ GoesOn s t v e ∧ t.mem = s.mem ∧ t.team? v.t.id = some u ∧
      ∃ q, q ∈ u.qfences ∧ q.mask = BitVec.ofNat 7 e.a.imm ∧ q.before = s.named v.t v.f.id (e.a.imm % 128)

/-- bar, bara, fbar and cbar of a fibre that has not arrived, with nothing of it under way and another live party missing: the arrival is added in the open phase, bar, fbar and cbar put the fibre in the Barrier state with its active lanes at the IP, bara goes on; when the fibre is the last live fibre of its team, and none of them is Held or in the Handler state, bar and bara complete the phase and the lanes go to IP + 1. barw returns at once when the phase of the latest arrival has completed and parks otherwise. In the Handler state all five raise hstate (0x12) with DETAIL 2. (R156, R264, R413) -/
def Obligations.BarriersCollectTheirFibres : Prop :=
  (∀ (i : Instr) (e : Enc) (waits : Bool) (s : State) (v : View), (i = .bar e ∧ waits = true) ∨ (i = .bara e ∧ waits = false) →
    let b := e.a.imm % 8
    let bar := barrAt v.t.bars b
    Runs i e s v → v.f.handler = false → v.f.id ∉ bar.arrived → s.arriveHold v.f = .free →
    ((∃ g ∈ s.liveFibres v.t.id, g.id ≠ v.f.id ∧ g.id ∉ bar.arrived) → ∃ (t : State) (u : Team), exec i s = .next t ∧ t.mem = s.mem ∧
      t.team? v.t.id = some u ∧ barrAt u.bars b = ⟨bar.phase, bar.arrived ++ [v.f.id]⟩ ∧
      (waits = true → Waiting s t v e .barrier (.phase b (v.active e))) ∧ (waits = false → GoesOn s t v e)) ∧
    ((∀ g ∈ s.liveFibres v.t.id, g.id = v.f.id ∨ g.id ∈ bar.arrived) → (s.fibres.map Fibre.id).Nodup →
      (∀ g ∈ s.liveFibres v.t.id, g.handler = false ∧ g.run ≠ .held) →
      ∃ (t : State) (u : Team), exec i s = .next t ∧ t.mem = s.mem ∧ t.team? v.t.id = some u ∧ barrAt u.bars b = ⟨bar.phase + 1, []⟩ ∧
        ∀ f, t.fibre? v.f.id = some f → ∀ lane, (v.mask &&& v.f.live).getLsbD lane = true → f.ip lane = v.ip + 1)) ∧
  (∀ (e : Enc) (s : State) (v : View), Runs (.barw e) e s v → v.f.handler = false →
    (SMap.get 0 v.f.arrived (e.a.imm % 8) ≤ (barrAt v.t.bars (e.a.imm % 8)).phase →
      ∃ t : State, exec (.barw e) s = .next t ∧ Performs s t v e [] 0) ∧
    ((barrAt v.t.bars (e.a.imm % 8)).phase < SMap.get 0 v.f.arrived (e.a.imm % 8) →
      ∃ t : State, exec (.barw e) s = .next t ∧ t.mem = s.mem ∧ Waiting s t v e .parked (.barw (e.a.imm % 8)))) ∧
  (∀ (e : Enc) (s : State) (v : View), Runs (.fbar e) e s v → v.f.handler = false → s.arriveHold v.f = .free →
    s.outstanding v.f.id = false → (∃ g ∈ s.liveFibres v.t.id, g.slot = v.f.slot ∧ g.id ≠ v.f.id ∧
      g.id ∉ (barrAt v.t.fbars v.f.slot).arrived) →
    ∃ (t : State) (u : Team), exec (.fbar e) s = .next t ∧ t.mem = s.mem ∧ Waiting s t v e .barrier (.phase 8 (v.active e)) ∧ t.team? v.t.id = some u ∧
      (barrAt u.fbars v.f.slot).arrived = (barrAt v.t.fbars v.f.slot).arrived ++ [v.f.id]) ∧
  (∀ (e : Enc) (s : State) (v : View), Runs (.cbar e) e s v → v.f.handler = false → s.arriveHold v.f = .free →
    v.t.clusterSize ≤ 1 → (s.core v.t.core).l1 = [] →
    (∃ g ∈ s.liveFibres v.t.id, g.id ≠ v.f.id ∧ g.id ∉ v.t.cbar.arrived) →
    ∃ (t : State) (u : Team), exec (.cbar e) s = .next t ∧ t.mem = s.mem ∧ Waiting s t v e .barrier (.phase 9 (v.active e)) ∧ t.team? v.t.id = some u ∧
      u.cbar = ⟨v.t.cbar.phase, v.t.cbar.arrived ++ [v.f.id]⟩) ∧
  ∀ (i : Instr) (e : Enc) (s : State) (v : View), i = .bar e ∨ i = .bara e ∨ i = .barw e ∨ i = .cbar e ∨ i = .fbar e → Runs i e s v →
    v.f.handler = true → ∃ t : State, exec i s = .next t ∧ Traps s t v 0x12 0 2 v.mask 0

/-- waddr with a nonzero timeout, a readable record, a sound word in bounds whose line translates, nothing held and nothing of the fibre in a side log, parks the fibre until cycle t + timeout under a read of the expected word; a timeout of 0 raises the illegal-operand trap with FIELD 1; and once that cycle has come, WADDR_TIMEOUT makes the fibre Ready or current with its lanes past the instruction, and not before. (R137, R265) -/
def Obligations.WaddrParksUnderItsTimeout : Prop :=
  (∀ (e : Enc) (s s1 : State) (v : View),
    let x := v.at (.waddr e) e
    Runs (.waddr e) e s v → s.accessHold v.f = .free → (∀ y ∈ s.sideLog, y.fid ≠ v.f.id) →
    (x.u32 1 = 0 → ∃ t : State, exec (.waddr e) s = .next t ∧ Traps s t v 2 1 9 (v.active e) 0) ∧
    (x.u32 1 ≠ 0 → (x.buf 2).bad false = none → (x.buf 2).prd = true →
      (∀ el ∈ x.oneWord (x.buf 2), el.inb = true ∧ el.reach < 2 ^ 57 ∧ el.va % 4 = 0) →
      (s.translateLines v.t.core v.l.ctx .read (gatherLines (elemPieces (x.oneWord (x.buf 2)) noData noData))).2 = s1 →
      (∀ p ∈ (s.translateLines v.t.core v.l.ctx .read (gatherLines (elemPieces (x.oneWord (x.buf 2)) noData noData))).1,
        ∃ pl, p.2 = .ok pl) →
      ∃ (t : State) (o : MemOp), exec (.waddr e) s = .next t ∧ t.mem = s1.mem ∧ Waiting s t v e .parked (.waddr (s.now + x.u32 1) (v.active e)) ∧
        t.ops = s.ops ++ [o] ∧ o.fid = v.f.id ∧ o.kind = .watch (BitVec.ofNat 32 (x.u32 5)))) ∧
  ∀ (s : State) (fid u : Nat) (lanes : Mask) (f : Fibre), s.fibre? fid = some f → f.waits = .waddr u lanes →
    (s.now < u → exec (.waddrTimeout fid) s = .next s) ∧
    (u ≤ s.now → ∃ (t : State) (g : Fibre), exec (.waddrTimeout fid) s = .next t ∧ t.fibre? fid = some g ∧ (g.run = .ready ∨ g.run = .current) ∧
      g.waits = .none ∧ ∀ w ∈ t.watches, w.fid ≠ some fid)

/-- fgive with operands in range to a live fibre of the slot other than itself whose mailbox is free, with no result outstanding, writes the offer word to the mailbox and issues 1 for predicate D; a full mailbox is left and 0 issued. fclaim of an empty mailbox issues 0; of a well-formed offer it clears the mailbox and issues 1, and fclaim.set makes the range the window of the fibre at the next switch point; fwin issues base and size of the window. Memory does not change. (R266, R267, R268, R269) -/
def Obligations.WindowsAreHandedOver : Prop :=
  (∀ (e : Enc) (s : State) (v : View) (g : Fibre),
    let x := v.at (.fgive e) e
    let r := x.u32 2
    let base := x.u32 3
    let size := x.u32 4
    let box := SMap.get 0 g.uregs e.e.num.toNat
    Runs (.fgive e) e s v → v.mate r = some g → s.fibre? g.id = some g → g.id ≠ v.f.id → g.run ≠ .ended → r < v.t.perSlot →
    base % 8 = 0 → base ≤ 504 → size % 8 = 0 → 8 ≤ size → size ≤ 256 → base + size ≤ 512 → v.base ≤ base →
    base + size ≤ v.base + v.size → e.e.num.toNat < g.allot → s.outstanding v.f.id = false →
    ∃ (t : State) (q : Result) (h : Fibre), exec (.fgive e) s = .next t ∧ t.mem = s.mem ∧ GoesOn s t v e ∧ t.results = s.results ++ [q] ∧ q.fid = v.f.id ∧
      t.fibre? g.id = some h ∧ (∃ y : RegWrite, q.writes[0]? = some y ∧
        y.Is v ⟨e.d, 1, v.active e, fun _ => if box.getLsbD 31 = true then 0 else 1⟩ 0) ∧
      ∀ k, SMap.get 0 h.uregs k = if k = e.e.num.toNat ∧ box.getLsbD 31 = false
        then BitVec.ofNat 32 (2 ^ 31 + v.f.role * 2 ^ 26 + size * 2 ^ 16 + base) else SMap.get 0 g.uregs k) ∧
  (∀ (i : Instr) (e : Enc) (set_ : Bool) (s : State) (v : View) (role size base : Nat),
    (i = .fclaimSync e ∧ set_ = false) ∨ (i = .fclaimSet e ∧ set_ = true) →
    let w := (v.reg .uni e.a.num.toNat 0).toNat
    Runs i e s v → v.f.hazards = [] →
    (w < 2 ^ 31 → ∃ (t : State) (q : Result), exec i s = .next t ∧ t.mem = s.mem ∧ GoesOn s t v e ∧ t.results = s.results ++ [q] ∧ q.fid = v.f.id ∧
      ∃ y : RegWrite, q.writes[0]? = some y ∧ y.Is v ⟨e.d, 1, v.active e, fun _ => 0⟩ 0) ∧
    (w = 2 ^ 31 + role * 2 ^ 26 + size * 2 ^ 16 + base → role < 4 → base % 8 = 0 → base ≤ 504 → size % 8 = 0 → 8 ≤ size → size ≤ 256 →
      base + size ≤ 512 → ∃ (t : State) (q : Result) (f : Fibre), exec i s = .next t ∧ t.mem = s.mem ∧ t.results = s.results ++ [q] ∧ q.fid = v.f.id ∧
        (∃ y : RegWrite, q.writes[0]? = some y ∧ y.Is v ⟨e.d, 1, v.active e, fun _ => 1⟩ 0) ∧ t.fibre? v.f.id = some f ∧
        SMap.get 0 f.uregs e.a.num.toNat = 0 ∧ (∀ k, k ≠ e.a.num.toNat → SMap.get 0 f.uregs k = SMap.get 0 v.f.uregs k) ∧
        f.winNext = (if set_ then some (base, size) else v.f.winNext) ∧ Stands t v v.mask fun _ => v.ip + 1)) ∧
  ∀ (e : Enc) (s : State) (v : View), Runs (.fwin e) e s v → WritesD true (.fwin e) e s v 1 0 fun _ => v.base + v.size * 2 ^ 16

/-! ## Engines (R162 to R164, R270 to R292) -/

namespace Sys2Proof.Machine

/-- What an instruction hands to an engine: the kind of its operation, its queue, whether it leaves a result outstanding, the
operand values and the records read at issue, and what its operands must be for it to enter the queue. -/
structure Asked where
  kind : EngKind
  queue : Nat
  returns : Bool
  vals : List Nat
  recA : Nat
  recD : Nat
  sound : Prop

/-- The record of a field is well formed and permits an access (R84, R85). -/
abbrev Iss.grants (x : Iss) (k : Nat) (p : Perm) : Prop := (x.buf k).bad false = none ∧ (x.buf k).denied p = none

/-- Each piece lies in bounds, below 2^57 and aligned to z, or out of the bounds of a record that does not trap (R274, R442). -/
abbrev Buf.carries (b : Buf) (ps : List Piece) (z : Nat) : Prop :=
  ∀ p ∈ ps, (b.inb p.off p.n = false → b.oob ≠ 1) ∧
    (b.inb p.off p.n = true → (∀ k, k < p.n → b.va (p.off + k) < 2 ^ 57) ∧ (2 ≤ z → b.va p.off % z = 0))

/-- The offset operand of the scales, with a split layout alone (R275). -/
def Iss.scaleOff (x : Iss) : Nat := if x.e.hi2 = 2 then x.u32 5 else 0

/-- A row transfer of q blocks can begin (R274, R275). -/
abbrev Iss.rowsReady (x : Iss) (q : Nat) (p : Perm) : Prop :=
  (x.rows q).aligned = true ∧ x.grants 2 p ∧ (x.buf 2).carries (x.rows q).all 1

/-- An image of an accumulator can be read or written (R287). -/
abbrev Iss.imageReady (x : Iss) (p : Perm) : Prop :=
  x.grants 2 p ∧ ((x.u32 3 * (x.buf 2).stride : Nat) + x.i32 4) % 4 = 0 ∧
    (x.buf 2).carries ((List.range 4097).map fun k => imagePiece (x.buf 2) (x.u32 3) k (x.i32 4)) 4

/-- The second word of the offsets of a drain to split blocks (R285). -/
def Iss.drainScale (x : Iss) : Nat := if x.e.hi2 = 2 then (x.v.reg .uni (x.e.e.num.toNat + 1) 0).toNat else 0

/-- A drain to memory can begin (R285). -/
abbrev Iss.drainReady (x : Iss) : Prop :=
  let rows : Rows := ⟨x.buf 3, x.e.hi2, elemWidth x.e.lo4, 2, x.u32 4, x.i32 5, signed 32 x.drainScale⟩
  (x.e.hi2 = 2 → rows.aligned = true) ∧ x.grants 3 .write ∧
    (x.buf 3).carries ((List.range (drainItems x.e.hi2)).flatMap
      (drainItem (x.buf 3) x.e.hi2 x.e.lo4 (x.u32 4) (x.i32 5) (signed 32 x.drainScale)))
      (if x.e.hi2 = 0 then elemWidth x.e.lo4 / 8 else 1)

/-- The instructions of the matrix and B queues but for `mma` (R276, R277, R283 to R287, R291). -/
def matrixAsks : Instr → Option (Enc × (Iss → Asked))
  | .azero e => some (e, fun x => ⟨.azero, 2, true, [], 0, 0, x.v.kernel.llen ≠ 0⟩)
  | .aswap e => some (e, fun x => ⟨.aswap, 2, true, [], 0, 0, x.v.kernel.llen ≠ 0⟩)
  | .aflag e => some (e, fun x => ⟨.aflag, 2, true, [], 0, 0, x.v.kernel.llen ≠ 0⟩)
  | .tcvt e => some (e, fun x => ⟨.tcvt, 2, true, [], 0, 0, x.v.kernel.llen ≠ 0⟩)
  | .ald e => some (e, fun x => ⟨.ald, 2, true, [x.u32 3, x.u32 4], x.recBits 2, 0, x.v.kernel.llen ≠ 0 ∧ x.imageReady .read⟩)
  | .ast e => some (e, fun x => ⟨.ast, 2, false, [x.u32 3, x.u32 4], x.recBits 2, 0, x.v.kernel.llen ≠ 0 ∧ x.imageReady .write⟩)
  | .tld e => some (e, fun x =>
      ⟨.tld, 2, true, [x.u32 3, x.u32 4, x.scaleOff], x.recBits 2, 0, x.v.kernel.llen ≠ 0 ∧ x.rowsReady 1 .read⟩)
  | .tst e => some (e, fun x =>
      ⟨.tst, 2, false, [x.u32 3, x.u32 4, x.scaleOff], x.recBits 2, 0, x.v.kernel.llen ≠ 0 ∧ x.rowsReady 1 .write⟩)
  | .adrain e => some (e, fun x =>
      if e.hi2 = 3 then ⟨.adrain, 2, true, [], 0, 0, x.v.kernel.llen ≠ 0⟩
      else ⟨.adrain, 2, decide (e.d.cls = .uni ∨ e.ext3 % 2 = 1), [x.u32 4, x.u32 5, x.drainScale], x.recBits 3, 0,
        x.v.kernel.llen ≠ 0 ∧ x.drainReady⟩)
  | .bld e => some (e, fun x =>
      ⟨.bld, 3, false, [x.u32 3, x.u32 4, x.scaleOff, x.u32 1], x.recBits 2, 0,
        bldValid (x.u32 1) false = true ∧ x.rowsReady (x.u32 1 / 2 ^ 8 % 2 ^ 8) .read⟩)
  | .bldBc e => some (e, fun x =>
      ⟨.bldBc, 3, false, [x.u32 3, x.u32 4, x.scaleOff, x.u32 1], x.recBits 2, 0,
        x.v.t.nslots ≠ 0 ∧ bldValid (x.u32 1) true = true ∧ x.rowsReady (x.u32 1 / 2 ^ 8 % 2 ^ 8) .read⟩)
  | _ => none

/-- The instruction is complete: its lanes go on, and an operation with what it asks stands last in its queue, behind what
queue fences hold it; an operation that returns leaves a result outstanding. Every register is as before, memory is that of s1, and the
team but for the queue is the one given. -/
structure Enters (s s1 t : State) (v : View) (e : Enc) (base : Team) (a : Asked) : Prop where
  on : GoesOn s t v e
  mem : t.mem = s1.mem
  team : ∃ o : EngOp, t.team? v.t.id = some { base with queues := base.queues ++ [o] } ∧ o.kind = a.kind ∧ o.queue = a.queue ∧
    o.fid = v.f.id ∧ o.ip = v.ip ∧ o.lanes = v.active e ∧ o.enc = e ∧ o.vals = a.vals ∧ o.recA = BitVec.ofNat 256 a.recA ∧
    o.recD = BitVec.ofNat 256 a.recD ∧ o.pos = 0 ∧ o.begun = false ∧ o.held = none ∧ o.after = s.qholdOf v.t a.queue ∧
    (a.returns = false → o.result = none ∧ t.results = s.results) ∧
    (a.returns = true → ∃ r, o.result = some r ∧ t.results = s.results ++ [⟨r, v.f.id, false, [], 0⟩])

/-- The instruction does not issue: nothing but the earliest cycle of the fibre's next issue changes. -/
structure Stays (s t : State) (v : View) : Prop where
  fibre : ∃ n, t.fibre? v.f.id = some { v.f with notBefore := n }
  fibres : ∀ g, g ≠ v.f.id → t.fibre? g = s.fibre? g
  rest : { t with fibres := s.fibres } = s

end Sys2Proof.Machine

/-- azero, adrain, aswap, aflag, ald, ast, tld, tst, tcvt, bld and bld.bc of every live lane, with the lease count or entries that they need and sound operands, enter their queue with their operand values and leave every register and all of memory unchanged; a full queue of 16 keeps them from issuing. (R162, R164, R271, R272, R276, R277, R284, R285, R287, R291) -/
def Sys2Proof.Machine.MatrixAndSliceInstructionsEnterTheirQueue : Prop :=
  ∀ (i : Instr) (e : Enc) (ask : Iss → Asked) (s : State) (v : View), matrixAsks i = some (e, ask) →
    let a := ask (v.at i e)
    Runs i e s v → v.active e = v.f.live → a.sound →
    ((v.t.queue a.queue).length < 16 → ∃ t : State, exec i s = .next t ∧ Enters s s t v e v.t a) ∧
    (16 ≤ (v.t.queue a.queue).length → ∃ t : State, exec i s = .next t ∧ Stays s t v)

/-- lease, unlease, mma and the matrix instructions of a part of the live lanes raise the partial-mask trap (0x0B), and of every live lane without a lease count in the kernel the no-lease trap (0x0C); bld, bld.bc, the copies, cpw and the stack instructions of a part of the live lanes raise the partial-mask trap too, and bld.bc and bwst of a team without entries raise the stack trap (0x0E) with DETAIL 1. (R270, R271, R291, R300) -/
def Sys2Proof.Machine.EngineInstructionsNeedEveryLaneAndTheirGrant : Prop :=
  ∀ (i : Instr) (e : Enc) (s : State) (v : View), Runs i e s v →
    let lease := i = .lease e ∨ i = .unlease e ∨ i = .mma e ∨ i = .azero e ∨ i = .aswap e ∨ i = .aflag e ∨ i = .tcvt e ∨ i = .ald e ∨
      i = .ast e ∨ i = .tld e ∨ i = .tst e ∨ i = .adrain e
    let entries := i = .bldBc e ∨ i = .bwst e
    (lease ∨ entries ∨ i = .bld e ∨ i = .cp e ∨ i = .cpg e ∨ i = .cps e ∨ i = .cp2d e ∨ i = .cpcb e ∨ i = .cpw e ∨ i = .bwld e ∨
        i = .bwbar e ∨ i = .bwslot e ∨ i = .bwslotN e → v.active e ≠ v.f.live →
      ∃ t : State, exec i s = .next t ∧ Traps s t v 11 0 0 v.mask 0) ∧
    (lease → v.active e = v.f.live → v.kernel.llen = 0 → ∃ t : State, exec i s = .next t ∧ Traps s t v 12 0 0 v.mask 0) ∧
    (entries → v.active e = v.f.live → v.t.nslots = 0 → ∃ t : State, exec i s = .next t ∧ Traps s t v 14 0 1 v.mask 0)

/-- Matrix and B-slice instructions enter their queue, and trap on a partial mask or without their grant: the claims MatrixAndSliceInstructionsEnterTheirQueue, EngineInstructionsNeedEveryLaneAndTheirGrant together. (R162, R164, R270, R271, R272, R276, R277, R284, R285, R287, R291, R300) -/
def Obligations.MatrixAndSliceInstructionsIssue : Prop :=
  MatrixAndSliceInstructionsEnterTheirQueue ∧ EngineInstructionsNeedEveryLaneAndTheirGrant

/-- mma of every live lane with a valid parameter word and room in the queue: with the lease held it enters the queue and spends one count, keeping the engine with a fresh count at the last one unless another team of the core waits, when it becomes Releasing; without the lease it parks its fibre as a request (that of a Releasing team is a choice of the model, log 84). lease of a holder does nothing and else parks as a request; unlease gives the lease up at once when no mma is queued and no fibre of the team waits for it, and marks it Releasing while one is queued. The grant goes to the first waiting team after the last holder. (R64, R279, R280, R282, R353) -/
def Obligations.TheLeaseIsCountedByMma : Prop :=
  (∀ (e : Enc) (s : State) (v : View), Runs (.mma e) e s v → v.active e = v.f.live → v.kernel.llen ≠ 0 →
    mmaValid ((v.at (.mma e) e).u32 3) e.a.num.toNat = true → (v.t.queue 2).length < 16 →
    (v.t.lease = .held →
      let waits := ∃ u ∈ s.teams, u.core = v.t.core ∧ u.id ≠ v.t.id ∧ u.lease = .waiting
      (1 < v.t.leaseLeft → ∃ t : State, exec (.mma e) s = .next t ∧
        Enters s s t v e { v.t with leaseLeft := v.t.leaseLeft - 1 } ⟨.mma, 2, true, [(v.at (.mma e) e).u32 3], 0, 0, True⟩) ∧
      (v.t.leaseLeft ≤ 1 → ¬ waits → ∃ t : State, exec (.mma e) s = .next t ∧
        Enters s s t v e { v.t with leaseLeft := v.kernel.llen } ⟨.mma, 2, true, [(v.at (.mma e) e).u32 3], 0, 0, True⟩) ∧
      (v.t.leaseLeft ≤ 1 → waits → ∃ t : State, exec (.mma e) s = .next t ∧
        Enters s s t v e { v.t with lease := .releasing, leaseLeft := 0 } ⟨.mma, 2, true, [(v.at (.mma e) e).u32 3], 0, 0, True⟩)) ∧
    (v.t.lease ≠ .held → ∃ t : State, exec (.mma e) s = .next t ∧ Waiting s t v e .parked .lease ∧
      t.team? v.t.id = some { v.t with lease := if v.t.lease = .releasing then .releasing else .waiting } ∧ t.mem = s.mem)) ∧
  (∀ (e : Enc) (s : State) (v : View), Runs (.lease e) e s v → v.active e = v.f.live → v.kernel.llen ≠ 0 →
    (v.t.lease = .held → ∃ t : State, exec (.lease e) s = .next t ∧ Performs s t v e [] 0) ∧
    (v.t.lease ≠ .held → ∃ t : State, exec (.lease e) s = .next t ∧ Waiting s t v e .parked .lease ∧
      t.team? v.t.id = some { v.t with lease := if v.t.lease = .releasing then .releasing else .waiting } ∧ t.mem = s.mem)) ∧
  (∀ (e : Enc) (s : State) (v : View), Runs (.unlease e) e s v → v.active e = v.f.live → v.kernel.llen ≠ 0 →
    (v.t.lease ≠ .held → ∃ t : State, exec (.unlease e) s = .next t ∧ Performs s t v e [] 0) ∧
    (v.t.lease = .held → (∀ o ∈ v.t.queues, o.kind ≠ .mma) → (∀ f ∈ s.fibres, f.team = v.t.id → f.waits ≠ .lease) → ∃ t : State, exec (.unlease e) s = .next t ∧ GoesOn s t v e ∧ t.mem = s.mem ∧
      t.team? v.t.id = some { v.t with lease := .none, leaseLeft := 0 }) ∧
    (v.t.lease = .held → (∃ o ∈ v.t.queues, o.kind = .mma) → ∃ t : State, exec (.unlease e) s = .next t ∧ GoesOn s t v e ∧ t.mem = s.mem ∧
      t.team? v.t.id = some { v.t with lease := .releasing })) ∧
  ∀ (core : Nat) (s : State) (t : Team) (l : Launch), s.team? t.id = some t → t.core = core → t.lease = .waiting → t.slotNo < 16 →
    (s.core core).arbLast < 16 → s.launch? t.launch = some l →
    (∀ u ∈ s.teams, u.core = core → u.lease ≠ .held ∧ u.lease ≠ .releasing) →
    (∀ u ∈ s.teams, u.core = core → u.lease = .waiting → u = t ∨ 16 ≤ u.slotNo ∨
      (t.slotNo + 15 - (s.core core).arbLast) % 16 < (u.slotNo + 15 - (s.core core).arbLast) % 16) →
    ∃ u : State, exec (.leaseGrant core) s = .next u ∧ u.mem = s.mem ∧
      u.team? t.id = some { t with lease := .held, leaseLeft := if t.leaseLeft = 0 then (l.kernelAt t.kernel).llen else t.leaseLeft } ∧
      (u.core core).arbLast = t.slotNo ∧
      (∀ f ∈ s.fibres, s.fibre? f.id = some f → f.team = t.id → f.waits = .lease →
        ∃ g, u.fibre? f.id = some g ∧ (g.run = .ready ∨ g.run = .current) ∧ g.waits = .none) ∧
      ∀ k, k ≠ t.id → u.team? k = s.team? k

namespace Sys2Proof.Machine

/-- Operation o stands at the head of a queue of team t and can go on: it is held on no page and behind no other operation,
its launch has not ended, its team and core hold no uncorrectable unit, its fibre has no access under way and comes to no cbar or tcommit, and no
fibre waits for its side log. -/
structure Heads (s : State) (t : Team) (q : Nat) (o : EngOp) : Prop where
  team : s.team? t.id = some t
  head : (t.queue q).head? = some o
  one : ∀ p ∈ t.queues, p.id = o.id ∨ (p.result.isSome = true ∧ p.result = o.result) → p = o
  held : o.held = none
  after : s.anyLives o.after = false
  runs : s.isOver t = false
  good : t.bad = [] ∧ (s.core t.core).bad = []
  ops : s.pendingOps o.fid = []
  calm : (∀ f ∈ s.fibres, f.waits ≠ .log) ∧ ∀ f, s.fibre? o.fid = some f → f.Comes = false

/-- The operation has performed: it is gone from its team, whose words of the pool and scratchpad are as before, and memory is as before. -/
structure Leaves (s u : State) (t w : Team) (o : EngOp) : Prop where
  team : u.team? t.id = some w
  gone : ∀ q ∈ w.queues, q.id ≠ o.id
  pool : w.pool = t.pool
  spad : w.spad = t.spad
  mem : u.mem = s.mem

/-- An outstanding result that no operation has answered is known, or outstanding no more when it writes nothing. -/
def Answered (s u : State) (r : Option Nat) (ws : List RegWrite) : Prop :=
  ∀ k, r = some k → (ws = [] → ∀ x ∈ u.results, x.id ≠ k) ∧
    (ws ≠ [] → ∀ x ∈ s.results, x.id = k → { x with known := true, writes := ws } ∈ u.results)

end Sys2Proof.Machine

/-- MATRIX_OPERATION with the operation at the head of the matrix queue: mma sets each of the 4,096 elements of its accumulator to the value that R107 makes of its old value (or +0), the tile rows and the B columns, and ORs the flags of all cells into the flags; azero leaves +0 in every element, aswap exchanges two accumulators, aflag answers the flags and RESTORED, tcvt writes the re-quantised rows of its tile; no other accumulator or tile, no register and no memory changes, and the operation is gone from the queue. (R76, R77, R106, R107, R108, R277, R280, R284) -/
def Obligations.MatrixOperationsPerform : Prop :=
  ∀ (s : State) (t : Team) (o : EngOp), Heads s t 2 o →
    let d := o.enc.d.num.toNat
    let a := o.enc.a.num.toNat
    let m := MmaWord.of (o.vals.headD 0)
    let r := fun i j => cell m ((t.acc d).at i j) (fun k => t.granule (a + k) i)
      (fun k => (SMap.get 0 (s.core t.core).bslices (sliceKey j (m.g0 + k))).toNat)
    (o.kind = .mma → ∃ (u : State) (w : Team), exec (.matrixOperation t.id) s = .next u ∧ Leaves s u t w o ∧ Answered s u o.result [] ∧ w.tiles = t.tiles ∧
      (∀ k, k ≠ d → w.acc k = t.acc k) ∧
      (∀ i j, i < 64 → j < 64 → (w.acc d).at i j = (r i j).1 % 2 ^ 32) ∧
      ∀ n, n < 4 → ((w.acc d).flags.getLsbD n = true ↔
        (t.acc d).flags.getLsbD n = true ∨ ∃ i j, i < 64 ∧ j < 64 ∧ bitN (r i j).2 n = true)) ∧
    (o.kind = .azero → ∃ (u : State) (w : Team), exec (.matrixOperation t.id) s = .next u ∧ Leaves s u t w o ∧ Answered s u o.result [] ∧ w.tiles = t.tiles ∧
      (∀ k, k ≠ d → w.acc k = t.acc k) ∧ (∀ i j, (w.acc d).at i j = 0) ∧
      (w.acc d).flags = if o.enc.mod = 1 then 0 else (t.acc d).flags) ∧
    (o.kind = .aswap → ∃ (u : State) (w : Team), exec (.matrixOperation t.id) s = .next u ∧ Leaves s u t w o ∧ Answered s u o.result [] ∧ w.tiles = t.tiles ∧
      ∀ k, w.acc k = if k = a then t.acc d else if k = d then t.acc a else t.acc k) ∧
    (o.kind = .aflag → ∃ (u : State) (w : Team), exec (.matrixOperation t.id) s = .next u ∧ Leaves s u t w o ∧ w.tiles = t.tiles ∧ w.accs = t.accs ∧
      Answered s u o.result
        (if o.enc.d.cls = .uni then [⟨.uni, d, 1, [(0, BitVec.ofNat 32 ((t.acc a).flags.toNat + if t.restored then 256 else 0))]⟩] else [])) ∧
    (o.kind = .tcvt → ∃ (u : State) (w : Team), exec (.matrixOperation t.id) s = .next u ∧ Leaves s u t w o ∧ Answered s u o.result [] ∧ w.accs = t.accs ∧
      (∀ i, i < 64 → w.granule d i =
        (mxQuantise (Fmt.ofCode o.enc.ty) o.mode (tcvtValues t a o.enc.var i)).granule % 2 ^ 264) ∧
      ∀ k i, i < 64 → k ≠ d → w.granule k i = t.granule k i)

/-- MULE_COPY with a cp of n bytes (1 to 2^24) into the scratchpad of its own team at the head of the queue: with nothing in stock it reads the n bytes at its source, from that scratchpad or from one line of a record, and changes no byte of any scratchpad and no memory but by that read; with bytes in stock it writes the next aligned word that they hold, or else the next byte, to its place of the destination, changes no other byte of the scratchpad and no memory, and after the last one the copy has performed (where source and destination overlap, which value a byte gets is free, log 16). (R133, R145, R163, R293, R294, R295) -/
def Sys2Proof.Machine.CopiesMoveTheirBytes : Prop :=
  ∀ (s : State) (t : Team) (o : EngOp) (n : Nat), Heads s t 1 o → o.kind = .cp → o.pos = 0 →
    o.val 4 = n → 1 ≤ n → n ≤ 2 ^ 24 → o.val 5 = 1 → copyKind o.enc true = 1 → o.val 0 = t.id →
    let dst := signed 32 (o.val 2)
    let src := signed 32 (o.val 3)
    0 ≤ dst → dst + n ≤ t.scratch →
    (o.part = 0 → o.stocked = 0 → o.begun = false → copyKind o.enc false = 1 → o.val 1 = t.id → 0 ≤ src → src + n ≤ t.scratch →
      ∃ (u : State) (w : Team) (p : EngOp), exec (.muleCopy t.id) s = .next u ∧ u.mem = s.mem ∧ u.team? t.id = some w ∧ w.spad = t.spad ∧ w.pool = t.pool ∧
        p ∈ w.queues ∧ p.id = o.id ∧ p.begun = true ∧ p.pos = 0 ∧ p.part = 0 ∧ p.stocked = n ∧ p.stock = spadRead t.spad src.toNat n) ∧
    (o.part = 0 → o.stocked = 0 → o.begun = false → copyKind o.enc false = 0 → o.buf.inb src n = true → n ≤ o.buf.room src →
      ∀ x s1, Eng.read ⟨t, s.ctxOf t, o⟩ s (o.buf.va src) n o.buf (decide (o.enc.sc = 0)) = .ok x s1 →
      ∃ (u : State) (w : Team) (p : EngOp), exec (.muleCopy t.id) s = .next u ∧ u.mem = s1.mem ∧ u.team? t.id = some w ∧ w.spad = t.spad ∧ w.pool = t.pool ∧
        p ∈ w.queues ∧ p.id = o.id ∧ p.pos = 0 ∧ p.part = 0 ∧ p.stocked = n ∧ p.stock = x) ∧
    (o.begun = true → o.part < n → 0 < o.stocked → o.stocked ≤ n - o.part →
      copyKind o.enc false = 0 ∨ (copyKind o.enc false = 1 ∧ o.val 1 ≠ t.id) ∨ src + n ≤ dst ∨ dst + n ≤ src →
      let at_ := dst.toNat + o.part
      let k := if at_ % 4 = 0 ∧ 4 ≤ o.stocked then 4 else 1
      ∃ (u : State) (w : Team), exec (.muleCopy t.id) s = .next u ∧ u.mem = s.mem ∧ u.team? t.id = some w ∧ w.pool = t.pool ∧
        (∀ i, i < k → spadRead w.spad (at_ + i) 1 = o.stock / 2 ^ (8 * i) % 2 ^ 8) ∧
        (∀ a, a < at_ ∨ at_ + k ≤ a → spadRead w.spad a 1 = spadRead t.spad a 1) ∧
        (o.part + k = n → ∀ q ∈ w.queues, q.id ≠ o.id) ∧
        (o.part + k < n → ∃ p ∈ w.queues, p.id = o.id ∧ p.pos = 0 ∧ p.part = o.part + k ∧ p.stocked = o.stocked - k ∧ p.stock = o.stock / 2 ^ (8 * k)))

/-- BSLICE_OPERATION with a banded block of 32 bytes at the head of the queue reads the next aligned word of the block, or else the next byte: before the last one the bytes join what has been got and no granule changes, and with the last one the granule of its column holds the 32 bytes with the scale 0x7F, and no other granule changes. (R145, R274, R288, R290, R291) -/
def Sys2Proof.Machine.SliceLoadsWriteTheirGranule : Prop :=
  ∀ (s s1 : State) (t : Team) (o : EngOp) (x : Nat) (p : Piece), Heads s t 3 o → o.kind = .bld → o.part < 32 → o.enc.hi2 = 0 →
    let w := BldWord.of (o.val 3)
    let r := o.rows 0 (elemWidth o.enc.lo4) w.ng
    let va := r.b.va (p.off + o.part)
    let k := if va % 4 = 0 ∧ 4 ≤ 32 - o.part ∧ 4 ≤ r.b.room (p.off + o.part) then 4 else 1
    o.pos < 64 * w.ng → w.g0 + w.ng ≤ 248 → r.item o.pos = [p] → p.n = 32 → r.b.inb p.off 32 = true →
    Eng.read ⟨t, s.ctxOf t, o⟩ s va k r.b true = .ok x s1 →
    ∃ (u : State), exec (.bsliceOperation t.id) s = .next u ∧
      (o.part + k < 32 → (u.core t.core).bslices = (s.core t.core).bslices ∧
        ∃ (v : Team), u.team? t.id = some v ∧ ∃ q ∈ v.queues, q.id = o.id ∧ q.pos = o.pos ∧ q.part = o.part + k ∧ q.got = o.got + x * 2 ^ (8 * o.part)) ∧
      (o.part + k = 32 → ∀ col g, g < 248 → SMap.get 0 (u.core t.core).bslices (sliceKey col g) =
        if col = o.pos / w.ng ∧ g = w.g0 + o.pos % w.ng then BitVec.ofNat 264 ((o.got + x * 2 ^ (8 * o.part)) % 2 ^ 256 + 0x7F * 2 ^ 256)
        else SMap.get 0 (s.core t.core).bslices (sliceKey col g))

/-- A copy moves exactly its bytes, and a B-slice load writes exactly its granule: the claims CopiesMoveTheirBytes, SliceLoadsWriteTheirGranule together. (R133, R145, R163, R274, R288, R290, R291, R293, R294, R295) -/
def Obligations.CopiesAndSliceLoadsMoveTheirBytes : Prop :=
  CopiesMoveTheirBytes ∧ SliceLoadsWriteTheirGranule

/-! ## The stack, copies, messages, collectives and tasks (R293 to R302, R306 to R322) -/

namespace Sys2Proof.Machine

/-- The rows of a scratchpad endpoint lie in its scratchpad (R294). -/
abbrev Iss.spadRows (x : Iss) (k kind : Nat) (off : Int) (n rows pitch : Nat) : Prop :=
  ∀ r, r < rows → n ≠ 0 → 0 ≤ off + (r * pitch : Nat) ∧ off + (r * pitch : Nat) + n ≤ (x.endTeam k kind).scratch

/-- The bytes in bounds of the rows of a global endpoint lie below 2^57 (R123). -/
abbrev Buf.rowsNear (b : Buf) (off : Int) (n rows pitch : Nat) : Prop :=
  ∀ r, r < rows → ∀ j, j < n → b.inb (off + (r * pitch : Nat) + j) 1 = true → b.va (off + (r * pitch : Nat) + j) < 2 ^ 57

/-- The shape and the endpoints of a copy are in range (R293 to R296). -/
abbrev Iss.copySound (x : Iss) (kind : EngKind) : Prop :=
  let dk := copyKind x.e true
  let sk := copyKind x.e false
  let h := x.shape kind
  (dk = 2 → x.u32 1 < x.v.ranks) ∧ (sk = 2 → x.u32 2 < x.v.ranks) ∧
    (if kind = .cp then h.n ≤ 2 ^ 24 else 1 ≤ h.n ∧ h.n ≤ 65536 ∧ 1 ≤ h.rows ∧ h.rows ≤ 65536) ∧
    (kind = .cpg ∨ kind = .cps → h.list % 4 = 0 ∧ h.list + 4 * h.rows ≤ x.v.t.scratch ∧ x.v.reg .uni (x.e.b.num.toNat + 3) 0 = 0) ∧
    (dk = 0 → x.grants 1 .write) ∧ (sk = 0 → x.grants 2 .read) ∧
    (dk ≠ 0 → x.spadRows 1 dk (x.i32 4) h.n h.rows h.dp) ∧ (sk ≠ 0 → x.spadRows 2 sk (x.i32 5) h.n h.rows h.sp) ∧
    (kind = .cp ∨ kind = .cp2d → (dk = 0 → (x.buf 1).rowsNear (x.i32 4) h.n h.rows h.dp) ∧
      (sk = 0 → (x.buf 2).rowsNear (x.i32 5) h.n h.rows h.sp))

/-- What a copy hands to the Mule. -/
def Iss.copyAsks (x : Iss) (kind : EngKind) : Asked :=
  let dk := copyKind x.e true
  let sk := copyKind x.e false
  let h := x.shape kind
  ⟨kind, 1, false, [(x.endTeam 1 dk).id, (x.endTeam 2 sk).id, x.u32 4, x.u32 5, h.n, h.rows, h.sp, h.dp, h.list],
    if sk = 0 then x.recBits 2 else 0, if dk = 0 then x.recBits 1 else 0, x.copySound kind⟩

/-- The instructions of the mule queue and `bwst`, of every live lane (R293 to R297, R300). -/
def moveAsks : Instr → Option (Enc × (Iss → Asked))
  | .cp e => some (e, fun x => x.copyAsks .cp)
  | .cpg e => some (e, fun x => x.copyAsks .cpg)
  | .cps e => some (e, fun x => x.copyAsks .cps)
  | .cp2d e => some (e, fun x => x.copyAsks .cp2d)
  | .cpcb e => some (e, fun x =>
      ⟨.cpcb, 1, false, [x.u32 1, 0, 0, x.u32 5, x.u32 3, 1, 0, 0, 0], x.recBits 2, 0,
        x.u32 1 ≤ 15 ∧ x.grants 2 .read ∧ (x.buf 2).rowsNear (x.i32 5) (min (x.u32 3) (2 ^ 24)) 1 0 ∧
          (x.v.t.cbuf (x.u32 1)).ns ≠ 0 ∧ 1 ≤ x.u32 3 ∧ x.u32 3 ≤ 16 * (x.v.t.cbuf (x.u32 1)).sz⟩)
  | .bwst e => some (e, fun x =>
      ⟨.bwst, 4, false, [x.u32 2], 0, 0,
        x.v.t.nslots ≠ 0 ∧ x.u32 2 % 64 = 0 ∧ x.v.l.grant.1 ≤ x.u32 2 ∧ x.u32 2 + 32 * stackBytes e ≤ x.v.l.grant.2 ∧
          x.v.s.pendingOps x.v.f.id = [] ∧ x.v.s.ownLog x.v.f.id = []⟩)
  | _ => none

/-- A put, a get or a put with signal can begin (R309, R310). -/
abbrev Iss.oneSidedSound (x : Iss) (kind : EngKind) (n : Nat) : Prop :=
  let sp := decide (x.e.mod.toNat % 2 = 1)
  let dGlob := !(sp && decide (kind = .get))
  let sGlob := !(sp && decide (kind ≠ .get))
  n ≤ 2 ^ 24 ∧ (dGlob = true → x.grants 1 .write ∧ (x.buf 1).rowsNear (x.i32 4) n 1 0) ∧
    (sGlob = true → x.grants 2 .read ∧ (x.buf 2).rowsNear (x.i32 5) n 1 0) ∧
    (dGlob = false → x.spadRows 1 1 (x.i32 4) n 1 0) ∧ (sGlob = false → x.spadRows 2 1 (x.i32 5) n 1 0) ∧
    (kind = .putsig →
      let k := (x.v.reg .uni (x.e.b.num.toNat + 1) 0).toNat
      k % 4 = 0 ∧ k + 4 ≤ (x.buf 1).extent ∧ x.v.reg .uni (x.e.b.num.toNat + 3) 0 = 0 ∧ (x.buf 1).denied .atomic = none ∧
        (x.buf 1).va k < 2 ^ 57 ∧ (x.buf 1).va k % 4 = 0)

/-- What a one-sided copy of n bytes hands to the msg queue. -/
def Iss.oneSidedAsks (x : Iss) (kind : EngKind) (n k inc : Nat) : Asked :=
  ⟨kind, 5, false, [x.v.t.id, x.v.t.id, x.u32 4, x.u32 5, n, 1, 0, 0, 0, k, inc],
    if kind ≠ .get ∧ x.e.mod.toNat % 2 = 1 then 0 else x.recBits 2,
    if kind = .get ∧ x.e.mod.toNat % 2 = 1 then 0 else x.recBits 1, x.oneSidedSound kind n⟩

/-- Word k of the quadruple or pair in B. -/
def Iss.wordB (x : Iss) (k : Nat) : Nat := (x.v.reg .uni (x.e.b.num.toNat + k) 0).toNat

/-- The instructions of the msg queue but for `app` (R306, R309, R310). -/
def messageAsks : Instr → Option (Enc × (Iss → Asked))
  | .am e => some (e, fun x =>
      ⟨.am, 5, false, [x.u32 2, x.u32 3, x.u32 5] ++ (List.range (x.u32 5)).map (fun k => (x.v.reg .uni (e.c.num.toNat + k) 0).toNat), 0, 0,
        x.u32 2 % 2 ^ 7 ≤ 95 ∧ x.u32 2 / 2 ^ 7 % 2 ^ 5 ≤ 23 ∧ x.u32 2 / 2 ^ 12 % 2 ^ 7 ∈ x.v.s.pkg.pool ∧ x.u32 3 < x.v.l.handlers.length ∧
          x.u32 5 ≤ 16 ∧ e.c.num.toNat + x.u32 5 ≤ x.v.f.allot⟩)
  | .put e => some (e, fun x => x.oneSidedAsks .put (x.u32 3) (x.wordB 1) 0)
  | .get e => some (e, fun x => x.oneSidedAsks .get (x.u32 3) (x.wordB 1) 0)
  | .putsig e => some (e, fun x => x.oneSidedAsks .putsig (x.wordB 0) (x.wordB 1) (x.wordB 2))
  | _ => none

end Sys2Proof.Machine

/-- cp, cpg, cps, cp2d, cpcb and bwst of every live lane with shapes and endpoints in range enter the mule or the stack queue with their operand values and records, and leave every register and all of memory unchanged; a full queue keeps them from issuing. (R293, R294, R295, R296, R297, R300) -/
def Sys2Proof.Machine.CopiesAndStackStoresEnterTheirQueue : Prop :=
  ∀ (i : Instr) (e : Enc) (ask : Iss → Asked) (s : State) (v : View), moveAsks i = some (e, ask) →
    let a := ask (v.at i e)
    Runs i e s v → v.active e = v.f.live → a.sound →
    ((v.t.queue a.queue).length < 16 → ∃ t : State, exec i s = .next t ∧ Enters s s t v e v.t a) ∧
    (16 ≤ (v.t.queue a.queue).length → ∃ t : State, exec i s = .next t ∧ Stays s t v)

/-- cpw with a limit of 0 to 15 that the count of unperformed mule operations does not pass, and bwbar with no stack operation of the team before it, answer at once with that count, and with the count of beats applied modulo 2^32; otherwise they enter the waits of the team with a result outstanding. Registers and memory are unchanged. (R298, R302) -/
def Sys2Proof.Machine.CopyAndBeatWaitsAnswer : Prop :=
  ∀ (i : Instr) (e : Enc) (s : State) (v : View), Runs i e s v → v.active e = v.f.live → v.t.queue 7 = [] →
    (∀ q ∈ v.t.queues, q.id < s.nextId) → (∀ r ∈ s.results, r.id < s.nextId) →
    let l := (v.at i e).u32 2
    let ids := (v.t.queues.filter fun o => decide (o.kind = .bwst) || decide (o.kind = .bldBc)).map EngOp.id
    let n := if i = .cpw e then (v.t.queue 1).length else v.t.beatsApplied % 2 ^ 32
    ((i = .cpw e ∧ l ≤ 15 ∧ (v.t.queue 1).length ≤ l) ∨ (i = .bwbar e ∧ ids = []) →
      ∃ (t : State) (r : Nat), exec i s = .next t ∧ GoesOn s t v e ∧ t.mem = s.mem ∧ t.team? v.t.id = some v.t ∧
        t.results = s.results ++ [⟨r, v.f.id, true, [⟨.uni, e.d.num.toNat, 1, [(0, BitVec.ofNat 32 n)]⟩], 0⟩]) ∧
    (i = .cpw e → l ≤ 15 → l < (v.t.queue 1).length →
      ∃ t : State, exec i s = .next t ∧ Enters s s t v e v.t ⟨.cpw, 7, true, [l], 0, 0, True⟩) ∧
    (i = .bwbar e → ids ≠ [] → ∃ t : State, exec i s = .next t ∧ Enters s s t v e v.t ⟨.bwbar, 7, true, ids, 0, 0, True⟩)

/-- bwld of every live lane with no access or firmware call of the fibre under way, whose bytes lie in the granted range, aligned, in a window without an uncorrectable unit, issues a result with the little-endian bytes of the window of its layer; a lane outside the grant raises the stack trap (0x0E), FIELD 2, DETAIL 2. bwslot issues the entry of its index, or 2^32 - 1 beyond the entries; its count form issues their number. (R299, R301, R302) -/
def Sys2Proof.Machine.StackReadsIssueTheirWords : Prop :=
  (∀ (e : Enc) (s : State) (v : View),
    let x := v.at (.bwld e) e
    let z := stackBytes e
    let o := fun lane => x.u32 2 + x.src 3 .u32 lane
    let out := fun lane => o lane < v.l.grant.1 ∨ v.l.grant.2 < o lane + z
    Runs (.bwld e) e s v → v.active e = v.f.live → s.pendingOps v.f.id = [] → (∀ c ∈ s.calls, c.fid ≠ v.f.id) → (s.layer (dieOf v.t.core)).bad = [] →
    ((∀ lane, (v.active e).getLsbD lane = true → ¬ out lane ∧ o lane % z = 0) → ∃ t : State, exec (.bwld e) s = .next t ∧
      Owes s t v e [⟨e.d, z / 4, v.active e, fun lane => spadRead (s.layer (dieOf v.t.core)).window (o lane) z⟩] 0) ∧
    ∀ bad : Mask, bad ≠ 0 → (∀ lane, lane < 32 → (bad.getLsbD lane = true ↔ (v.active e).getLsbD lane = true ∧ out lane)) →
      ∃ t : State, exec (.bwld e) s = .next t ∧ Traps s t v 14 2 2 bad 0) ∧
  (∀ (e : Enc) (s : State) (v : View), Runs (.bwslot e) e s v → v.active e = v.f.live → ∃ t : State, exec (.bwslot e) s = .next t ∧
    Owes s t v e [⟨e.d, 1, v.active e, fun _ => v.t.entries.getD ((v.at (.bwslot e) e).u32 2) (2 ^ 32 - 1)⟩] 0) ∧
  ∀ (e : Enc) (s : State) (v : View), Runs (.bwslotN e) e s v → v.active e = v.f.live → ∃ t : State, exec (.bwslotN e) s = .next t ∧
    Owes s t v e [⟨e.d, 1, v.active e, fun _ => v.t.entries.length⟩] 0

/-- Copies and stack stores enter their queue; their waits and the stack reads answer: the claims CopiesAndStackStoresEnterTheirQueue, CopyAndBeatWaitsAnswer, StackReadsIssueTheirWords together. (R293, R294, R295, R296, R297, R298, R299, R300, R301, R302) -/
def Obligations.CopyAndStackInstructionsIssue : Prop :=
  CopiesAndStackStoresEnterTheirQueue ∧ CopyAndBeatWaitsAnswer ∧ StackReadsIssueTheirWords

/-- am, put, get and putsig with operands in range enter the msg queue with their operand values and records, and leave every register and all of memory unchanged; a full queue keeps them from issuing. (R304, R306, R309, R310) -/
def Sys2Proof.Machine.MessagesEnterTheMsgQueue : Prop :=
  ∀ (i : Instr) (e : Enc) (ask : Iss → Asked) (s : State) (v : View), messageAsks i = some (e, ask) →
    let a := ask (v.at i e)
    Runs i e s v → a.sound →
    ((v.t.queue 5).length < 16 → ∃ t : State, exec i s = .next t ∧ Enters s s t v e v.t a) ∧
    (16 ≤ (v.t.queue 5).length → ∃ t : State, exec i s = .next t ∧ Stays s t v)

/-- app of a fibre without side-log entries, with aligned headers and rows in bounds below 2^57, under well-formed records with PAT and PWR on the list and PRD on the source, whose lines all translate, enters the msg queue with the header and source offsets of its lanes and a result outstanding; no register and no byte of memory changes but what the translations read. (R312, R313) -/
def Sys2Proof.Machine.AppendsEnterTheMsgQueue : Prop :=
  ∀ (e : Enc) (s s1 s2 : State) (v : View) (ht rt : List (VLine × Trans)),
    let x := v.at (.app e) e
    let n := 16 * (e.mod.toNat + 1)
    let oh := fun lane => x.src 3 .u32 lane * (x.buf 2).stride
    let os := fun lane => x.src 5 .u32 lane * (x.buf 4).stride
    Runs (.app e) e s v → (v.t.queue 5).length < 16 → (∀ y ∈ s.sideLog, y.fid ≠ v.f.id) →
    (x.buf 2).bad true = none → (x.buf 2).denied .atomic = none → (x.buf 2).denied .write = none →
    (x.buf 4).bad true = none → (x.buf 4).denied .read = none →
    (∀ lane, (v.active e).getLsbD lane = true → oh lane % 64 = 0 ∧ os lane % 16 = 0 ∧ oh lane + 64 ≤ (x.buf 2).extent ∧
      os lane + n ≤ (x.buf 4).extent ∧ (x.buf 2).base + oh lane + 64 ≤ 2 ^ 57 ∧ (x.buf 4).base + os lane + n ≤ 2 ^ 57) →
    s.translateLines v.t.core v.l.ctx .atomic
      (gatherLines ((lanesOf (v.active e)).flatMap fun lane => rangeLines (x.buf 2) lane (oh lane) 64)) = (ht, s1) →
    s1.translateLines v.t.core v.l.ctx .read
      (gatherLines ((lanesOf (v.active e)).flatMap fun lane => rangeLines (x.buf 4) lane (os lane) n)) = (rt, s2) →
    (∀ p ∈ ht ++ rt, ∃ q, p.2 = .ok q) →
    ∃ (t : State) (u : Team) (o : EngOp) (r : Nat), exec (.app e) s = .next t ∧ t.mem = s2.mem ∧ GoesOn s t v e ∧ t.team? v.t.id = some u ∧ u.queues = v.t.queues ++ [o] ∧
      o.kind = .app ∧ o.queue = 5 ∧ o.fid = v.f.id ∧ o.lanes = v.active e ∧ o.recA = BitVec.ofNat 256 (x.recBits 2) ∧
      o.recD = BitVec.ofNat 256 (x.recBits 4) ∧ o.result = some r ∧ t.results = s.results ++ [⟨r, v.f.id, false, [], 0⟩] ∧
      o.laneVals = (lanesOf (v.active e)).map fun lane => (lane, BitVec.ofNat 128 (oh lane % 2 ^ 64 + os lane % 2 ^ 64 * 2 ^ 64))

namespace Sys2Proof.Machine

/-- The word of an instruction that reads or writes one word, for every active lane: of `sigw` at index B and offset C, of
the collectives the status word at offset B (R311, R315). -/
def Iss.oneWordOf (x : Iss) (i : Instr) : List Elem :=
  (lanesOf x.act).map fun lane => match i with
    | .sigw _ => (x.buf 2).at lane 4 (x.u32 3) (x.i32 4)
    | _ => (x.buf 2).elem lane 4 (x.u32 3 : Nat)

/-- The word can be accessed: its record is well formed and permits the accesses, it is in bounds, below 2^57 and aligned, its
line translates, which leaves s1, nothing holds the access, and the fibre has no side-log entries; a descriptor's record has no swizzle. -/
structure Iss.Reaches (x : Iss) (i : Instr) (perms : List Perm) (p : Perm) (s s1 : State) : Prop where
  good : (x.buf 2).bad false = none
  perms : ∀ q ∈ perms, (x.buf 2).denied q = none
  place : ∀ el ∈ x.oneWordOf i, el.inb = true ∧ el.reach < 2 ^ 57 ∧ el.va % 4 = 0
  line : (∀ e, i ≠ .sigw e) → x.u32 3 % 64 = 0 ∧ x.u32 3 + 64 ≤ (x.buf 2).extent ∧ (x.buf 2).bad true = none
  hold : s.accessHold x.v.f = .free
  ops : s.pendingOps x.v.f.id = []
  log : ∀ y ∈ s.sideLog, y.fid ≠ x.v.f.id
  next : (s.translateLines x.v.t.core x.v.l.ctx p (gatherLines (elemPieces (x.oneWordOf i) noData noData))).2 = s1
  lines : ∀ y ∈ (s.translateLines x.v.t.core x.v.l.ctx p (gatherLines (elemPieces (x.oneWordOf i) noData noData))).1, ∃ q, y.2 = .ok q

/-- An operation of the fibre on its one word has left, with no byte of memory written. -/
structure Sends (s s1 t : State) (v : View) (kind : MemKind) (order : Order) (scope : Nat) : Prop where
  mem : t.mem = s1.mem
  op : ∃ o, t.ops = s.ops ++ [o] ∧ o.fid = v.f.id ∧ o.kind = kind ∧ o.order = order ∧ o.scope = scope ∧ o.performed = false ∧
    ∃ rs, t.reqs = s.reqs ++ rs ∧ rs ≠ [] ∧ ∀ r ∈ rs, r.op = o.id ∧ r.state = .waiting

end Sys2Proof.Machine

/-- sigw and collw on an accessible word send an acquire read of it at their scope and park the fibre under a watch with the active lanes at the IP, the read of sigw with its threshold; collw.test sends an acquire load with a result outstanding and goes on; coll sends a relaxed store of 0 to the status word and enters the coll queue with its record and offset. No register changes. (R311, R315, R316) -/
def Sys2Proof.Machine.SignalAndCollectiveWaitsReadTheirWord : Prop :=
  ∀ (i : Instr) (e : Enc) (s s1 : State) (v : View), Runs i e s v →
    let x := v.at i e
    (i = .sigw e → x.Reaches i [.read] .read s s1 → ∃ t : State, exec i s = .next t ∧ Waiting s t v e .parked .watch ∧
      Sends s s1 t v (.sigw (BitVec.ofNat 32 (x.u32 5))) .acquire e.sc.toNat) ∧
    (i = .collw e → x.Reaches i [.read, .write] .read s s1 → ∃ t : State, exec i s = .next t ∧ Waiting s t v e .parked .watch ∧
      Sends s s1 t v (.collw false) .acquire e.sc.toNat) ∧
    (i = .collwTest e → x.Reaches i [.read, .write] .read s s1 → ∃ t : State, exec i s = .next t ∧ GoesOn s t v e ∧
      Sends s s1 t v .load .acquire e.sc.toNat ∧ t.outstanding v.f.id = true) ∧
    (i = .coll e → (v.t.queue 6).length < 16 → x.Reaches i [.read, .write] .write s s1 → ∃ (t : State) (u : Team) (o : EngOp), exec i s = .next t ∧ GoesOn s t v e ∧
      Sends s s1 t v .store .relaxed e.sc.toNat ∧ t.results = s.results ∧ t.team? v.t.id = some u ∧ u.queues = v.t.queues ++ [o] ∧
      o.kind = .coll ∧ o.queue = 6 ∧ o.fid = v.f.id ∧ o.vals = [x.u32 3] ∧ o.recA = BitVec.ofNat 256 (x.recBits 2))

/-- Messages, appends, signal waits and collectives issue under their checks: the claims MessagesEnterTheMsgQueue, AppendsEnterTheMsgQueue, SignalAndCollectiveWaitsReadTheirWord together. (R304, R306, R309, R310, R311, R312, R313, R315, R316) -/
def Obligations.MessageInstructionsIssue : Prop :=
  MessagesEnterTheMsgQueue ∧ AppendsEnterTheMsgQueue ∧ SignalAndCollectiveWaitsReadTheirWord

/-- tspawn of a record whose lines translate, with nothing held, an entry free and an L1 without lines: a record that no check refuses enters the table in that entry with the count of tasks before it as its sequence number, which D receives; a refused record enters nothing and D receives 2^32 - 1. (R319, R345, R448) -/
def Sys2Proof.Machine.TspawnEntersItsTask : Prop :=
  ∀ (e : Enc) (s s1 s2 : State) (v : View) (entry rec : Nat) (ts : List (VLine × Trans)) (k : Launch),
    let x := v.at (.tspawn e) e
    let lines := runLines (x.buf 2) ((lanesOf (v.active e)).headD 0) (x.u32 3) 64
    Runs (.tspawn e) e s v → x.u32 3 % 64 = 0 → x.u32 3 + 64 ≤ (x.buf 2).extent → (x.buf 2).bad false = none →
    (x.buf 2).denied .read = none → (∀ l ∈ lines, l.va < 2 ^ 57) → s.arriveHold v.f = .free → s.freeEntry = some entry →
    (s.core v.t.core).l1 = [] →
    s.translateLines v.t.core v.l.ctx .read lines = (ts, s1) → (∀ p ∈ ts, ∃ q, p.2 = .ok q) →
    s1.readLines v.t.id (lineHits ts) = (rec, s2) →
    (s2.openLaunch v.l.ctx (rec % 2 ^ 64) 1 = some k → s2.launch? k.id = some k → taskRefusal rec (some k) = none →
      ∃ (t : State) (q : Result) (y : RegWrite), exec (.tspawn e) s = .next t ∧ GoesOn s t v e ∧ t.results = s2.results ++ [q] ∧ q.fid = v.f.id ∧ q.known = true ∧
        q.writes[0]? = some y ∧ y.Is v ⟨e.d, 1, v.active e, fun _ => k.nextTeam % 2 ^ 32⟩ 0 ∧ t.tasks.length = s.tasks.length + 1 ∧
        (∃ z ∈ t.tasks, z.entry = entry ∧ z.launch = k.id ∧ z.seq = k.nextTeam ∧ z.arg = BitVec.ofNat 32 (rec / 2 ^ 96 % 2 ^ 32)) ∧
        (t.launch? k.id).map Launch.nextTeam = some (k.nextTeam + 1)) ∧
    (taskRefusal rec (s2.openLaunch v.l.ctx (rec % 2 ^ 64) 1) ≠ none →
      ∃ (t : State) (q : Result) (y : RegWrite), exec (.tspawn e) s = .next t ∧ GoesOn s t v e ∧ t.results = s2.results ++ [q] ∧ q.fid = v.f.id ∧ q.known = true ∧
        q.writes[0]? = some y ∧ y.Is v ⟨e.d, 1, v.active e, fun _ => 2 ^ 32 - 1⟩ 0 ∧ t.tasks = s.tasks)

/-- With nothing held and an L1 without lines: tcommit in a task arrives at the commit barrier and its fibre enters the Barrier state, and after the commit it goes on; in another launch it raises the launch-kind trap (0x10), and in the handler hstate (0x12). nemit hands a record of the registers from D on for each active lane to the open node of its index. rdr under the Hen grant deposits for each active lane its key and 16 words and the lanes exit; without the grant it raises the trap 0x11. (R57, R69, R320, R321, R322, R413) -/
def Sys2Proof.Machine.TcommitNemitAndRdrHandOver : Prop :=
  (∀ (e : Enc) (s : State) (v : View), Runs (.tcommit e) e s v →
    (v.l.kind ≠ 1 → ∃ t : State, exec (.tcommit e) s = .next t ∧ Traps s t v 16 0 0 v.mask 0) ∧
    (v.l.kind = 1 → v.f.handler = true → ∃ t : State, exec (.tcommit e) s = .next t ∧ Traps s t v 0x12 0 2 v.mask 0) ∧
    (v.l.kind = 1 → v.f.handler = false → s.arriveHold v.f = .free → (s.core v.t.core).l1 = [] →
      (v.t.committed = true → ∃ t : State, exec (.tcommit e) s = .next t ∧ Performs s t v e [] 0) ∧
      (v.t.committed = false → ∃ t : State, exec (.tcommit e) s = .next t ∧ Waiting s t v e .barrier (.phase 10 (v.active e)) ∧ t.mem = s.mem ∧
        t.team? v.t.id = some { v.t with commit := ⟨v.t.commit.phase, v.t.commit.arrived ++ [v.f.id]⟩ }))) ∧
  (∀ (e : Enc) (s : State) (v : View) (l : Launch) (n k : Nat), (v.at (.nemit e) e).u32 2 = n → Runs (.nemit e) e s v →
    n < v.l.nodes.length → s.openLaunch v.l.ctx (v.l.nodes.getD n 0) 2 = some l → s.launch? l.id = some l →
    k = (l.kernelAt l.kernel).nodeShape.1 → e.d.num.toNat + k ≤ v.size → s.arriveHold v.f = .free → s.nodeRoom l = true →
    (s.core v.t.core).l1 = [] →
    ∃ t : State, exec (.nemit e) s = .next t ∧ OnlyRegs { s with launches := t.launches } t v ∧ GoesOn s t v e ∧
      (∀ j, j ≠ l.id → t.launch? j = s.launch? j) ∧
      t.launch? l.id = some { l with batch := { l.batch with incoming := l.batch.incoming ++
        ((lanesOf (v.active e)).map fun lane => (List.range k).map fun w => v.reg .vec (e.d.num.toNat + w) lane) } }) ∧
  ∀ (e : Enc) (s : State) (v : View), Runs (.rdr e) e s v →
    (v.l.hen = false → ∃ t : State, exec (.rdr e) s = .next t ∧ Traps s t v 17 0 0 v.mask 0) ∧
    (v.l.hen = true → e.d.num.toNat + 16 ≤ v.size → s.arriveHold v.f = .free → (s.core v.t.core).l1 = [] →
      ∃ (t : State) (f : Fibre), exec (.rdr e) s = .next t ∧ t.fibre? v.f.id = some f ∧ f.live = v.f.live &&& ~~~ v.active e ∧ (f.live = 0 → f.run = .ended) ∧
        (t.tower (towerOf v.t.core)).deposits = (s.tower (towerOf v.t.core)).deposits ++ ((lanesOf (v.active e)).map fun lane =>
          ⟨v.l.id, BitVec.ofNat 32 ((v.at (.rdr e) e).src 2 .u32 lane), (List.range 16).map fun w => v.reg .vec (e.d.num.toNat + w) lane⟩))

/-- tspawn, tcommit, nemit and rdr hand their tasks, arrivals and records over: the claims TspawnEntersItsTask, TcommitNemitAndRdrHandOver together. (R57, R69, R319, R320, R321, R322, R345, R413, R448) -/
def Obligations.TaskInstructionsHandOver : Prop :=
  TspawnEntersItsTask ∧ TcommitNemitAndRdrHandOver

/-! ## Messages, the stack channel and collectives on their way (R307, R360, R364, R368 to R375, R472 to R475) -/

namespace Sys2Proof.Machine

/-- No L1 holds a line, no exact sum is open, no line is lost and no watch stands, so that memory holds every value. -/
structure Plain (s : State) : Prop where
  l1 : ∀ c : Nat, (s.core c).l1 = []
  exacts : s.exacts = []
  lost : s.pkg.lostLines = []
  watches : s.watches = []

/-- The bytes of memory from a storage key on are the low n bytes of a number, and every other byte is as it was. -/
structure Stores (s u : State) (key n v : Nat) : Prop where
  stored : ∀ k, k < n → Memory.read u.mem (key + k) = BitVec.ofNat 8 (v / 2 ^ (8 * k))
  kept : ∀ a, (a < key ∨ key + n ≤ a) → Memory.read u.mem a = Memory.read s.mem a

/-- The ring of error records has room (R480). -/
abbrev State.ringRoom (s : State) : Prop :=
  (Memory.readN s.mem s.ringKey 4 + 2 ^ 32 - Memory.readN s.mem (s.ringKey + 4) 4) % 2 ^ 32 < 65535

/-- One error record of a type and a severity has been written into the ring (R480, R481). -/
structure Records (s u : State) (type sev : Nat) : Prop where
  seq : u.pkg.errSeq = s.pkg.errSeq + 1
  head : Memory.readN u.mem (s.ringKey + 64 + 64 * (Memory.readN s.mem s.ringKey 4 % 65535)) 2 % 2 ^ 10 = type + sev * 2 ^ 8

/-- An operation of a team is in its queue no more. -/
def Gone (u : State) (team op : Nat) : Prop := ∃ w, u.team? team = some w ∧ ∀ q ∈ w.queues, q.id ≠ op

/-- The bytes that a beat enables in a window (R300). -/
def Beat.covers (b : Beat) (j : Nat) : Prop := b.off ≤ j ∧ j < b.off + 64 ∧ b.enable.getLsbD ((j - b.off) / 4) = true

end Sys2Proof.Machine

/-- MSG_OPERATION with an am to a core of this package whose handler queue has room at the head of the msg queue sends its message with launch, handler, payload and sender and counts it for the launch; without room it changes nothing. With a put of n bytes from the own scratchpad to one line of this package it first reads the n bytes and changes no memory; with bytes in stock it writes the next aligned word that they hold, or else the next byte, to its place and no other byte of memory. After the last one the operation has performed. (R147, R163, R306, R307, R309) -/
def Sys2Proof.Machine.MessagesAndPutsPerform : Prop :=
  (∀ (s : State) (t : Team) (o : EngOp) (l : Launch), Heads s t 5 o → o.kind = .am → s.launch? t.launch = some l →
    let core := 96 * (o.val 0 / 2 ^ 7 % 2 ^ 5) + o.val 0 % 2 ^ 7
    o.val 0 / 2 ^ 12 % 2 ^ 7 = s.pkg.pkgNo → o.enc.sc = 0 ∨ (s.core t.core).l1 = [] →
    (s.handlerRoom (s.deliveryCore core) = false → exec (.msgOperation t.id) s = .next s) ∧
    (s.handlerRoom (s.deliveryCore core) = true → ∃ (u : State) (w : Team) (m : AmMsg), exec (.msgOperation t.id) s = .next u ∧ Leaves s u t w o ∧
      u.msgs = s.msgs ++ [m] ∧ m.core = core ∧ m.fibre = o.fid ∧ m.launch = t.launch ∧ m.handler = o.val 1 ∧
      m.payload = (List.range (o.val 2)).map (fun k => BitVec.ofNat 32 (o.val (3 + k))) ∧
      m.sender = BitVec.ofNat 32 (t.core % 96 + dieOf t.core * 2 ^ 7 + s.pkg.pkgNo * 2 ^ 12) ∧
      (u.launch? t.launch).map Launch.spawned = some (l.spawned + 1))) ∧
  ∀ (s : State) (t : Team) (o : EngOp) (n : Nat), Heads s t 5 o → o.kind = .put → o.pos = 0 → o.enc.mod.toNat % 2 = 1 → o.val 1 = t.id → o.val 4 = n → 1 ≤ n → o.val 5 = 1 → o.val 6 = 0 → o.val 7 = 0 →
    let b := Buf.of o.recD.toNat
    let d := signed 32 (o.val 2)
    let a := signed 32 (o.val 3)
    b.inb d n = true → n ≤ b.room d → 0 ≤ a → a + n ≤ t.scratch →
    (o.part = 0 → o.stocked = 0 → o.begun = false →
      ∃ (u : State) (w : Team) (q : EngOp), exec (.msgOperation t.id) s = .next u ∧ u.mem = s.mem ∧ u.team? t.id = some w ∧ w.spad = t.spad ∧ q ∈ w.queues ∧
        q.id = o.id ∧ q.begun = true ∧ q.part = 0 ∧ q.stocked = n ∧ q.stock = spadRead t.spad a.toNat n) ∧
    ∀ (s1 : State) (p : Place), o.begun = true → o.part < n → 0 < o.stocked → o.stocked ≤ n - o.part → b.va (d + o.part) < 2 ^ 57 →
      s.translate t.core (s.ctxOf t) (b.va (d + o.part)) .write = (.ok p, s1) → p.pkg = s.pkg.pkgNo → Plain s1 → s1.pendingOps o.fid = [] →
      let k := if b.va (d + o.part) % 4 = 0 ∧ 4 ≤ min o.stocked (b.room (d + o.part)) then 4 else 1
      ∃ u : State, exec (.msgOperation t.id) s = .next u ∧ Stores s1 u p.key k (o.stock % 2 ^ (8 * k)) ∧ (o.part + k = n → Gone u t.id o.id) ∧
        (o.part + k < n → ∃ (w : Team) (q : EngOp), u.team? t.id = some w ∧ q ∈ w.queues ∧ q.id = o.id ∧ q.part = o.part + k ∧ q.stocked = o.stocked - k ∧
          q.stock = o.stock / 2 ^ (8 * k))

/-- PUTSIG_SIGNAL for a putsig whose data has been written adds its increment to the 32-bit counter of this package modulo 2^32, changes no other byte and ends the operation. APP_ROW_STORE for a lane without an index or whose row would lie beyond the extent drops the row; for a row in one line at both ends it writes what the read of the source gives; either way it goes on to the next lane. (R165, R310, R313, R364) -/
def Sys2Proof.Machine.SignalsAndRowsPerform : Prop :=
  (∀ (s s1 : State) (t : Team) (o : EngOp) (p : Place), Heads s t 5 o → o.kind = .putsig → o.pos = 1 →
    s.teams.find? (fun t => t.queues.any fun q => q.id == o.id) = some t →
    let va := (Buf.of o.recD.toNat).va (o.val 9 : Nat)
    va < 2 ^ 57 → s.translate t.core (s.ctxOf t) va .atomic = (.ok p, s1) → p.pkg = s.pkg.pkgNo → Plain s1 → s1.pendingOps o.fid = [] →
    ∃ u : State, exec (.putsigSignal o.id) s = .next u ∧ Gone u t.id o.id ∧
      Stores s1 u p.key 4 ((Memory.readN s1.mem p.key 4 + o.val 10) % 2 ^ 32)) ∧
  ∀ (s : State) (t : Team) (o : EngOp) (lane : Nat), Heads s t 5 o → o.kind = .app → 1 ≤ o.pos →
    s.teams.find? (fun t => t.queues.any fun q => q.id == o.id) = some t → o.appLanes[o.pos - 1]? = some lane →
    let idx := o.vals.getD (o.pos - 1) 0
    let n := 16 * (o.enc.mod.toNat + 1)
    let g : Eng := ⟨t, s.ctxOf t, o⟩
    let src := o.appSource.va ((o.appAt lane).2 : Nat)
    let dst := o.appList.va ((o.appAt lane).1 + 64 + idx * n : Nat)
    (idx = 2 ^ 32 - 1 ∨ o.appList.extent < (o.appAt lane).1 + 64 + (idx + 1) * n → ∃ (u : State) (w : Team) (q : EngOp), exec (.appRowStore o.id) s = .next u ∧
      u.mem = s.mem ∧ u.team? t.id = some w ∧ q ∈ w.queues ∧ q.id = o.id ∧ q.pos = o.pos + 1) ∧
    (idx ≠ 2 ^ 32 - 1 → (o.appAt lane).1 + 64 + (idx + 1) * n ≤ o.appList.extent → o.part = 0 → n ≤ 128 - src % 128 → n ≤ 128 - dst % 128 →
      ∀ x y s1 s2, g.read s src n o.appSource (decide (o.enc.sc = 0)) false = .ok x s1 →
        g.write s1 dst n x o.appList (decide (o.enc.sc = 0)) false = .ok y s2 →
        ∃ (u : State) (w : Team) (q : EngOp), exec (.appRowStore o.id) s = .next u ∧ u.mem = s2.mem ∧ u.team? t.id = some w ∧ q ∈ w.queues ∧ q.id = o.id ∧
          q.pos = o.pos + 1)

/-- A Zunos packet with a reserved field is discarded and counted, and one for another package changes nothing here; a write to this package changes no bit but to the bit of its payload at its place, and is acknowledged; a read is answered and changes no byte. (Which bits of the payload a write enables is a free value, log 20.) AM_DELIVERY for the next message of its fibre and core, with fewer than 64 in the handler queue, queues one handler team at that core with payload, zeros, sender and count in s8 to s25, and the message is gone. (R307, R360) -/
def Sys2Proof.Machine.PacketsAndMessagesArrive : Prop :=
  (∀ (p : Packet) (s : State),
    (packetReserved p = true → ∃ c, exec (.zunosPacket p) s = .next { s with pkg := { s.pkg with errCounts := c } }) ∧
    (packetReserved p = false → packetBits p 18 12 ≠ s.pkg.pkgNo → exec (.zunosPacket p) s = .next s) ∧
    (packetReserved p = false → packetBits p 18 12 = s.pkg.pkgNo → packetBits p 109 103 = s.pkg.pkgNo → packetBits p 3 0 = 1 → Plain s →
      ∃ (u : State) (x : Packet), exec (.zunosPacket p) s = .next u ∧ u.teams = s.teams ∧ u.wire = s.wire ++ [x] ∧ x.header.toNat % 16 = 4 ∧
        ∀ a b, b < 8 → (Memory.read u.mem a).getLsbD b = (Memory.read s.mem a).getLsbD b ∨
          ∃ i, i < 64 * packetBits p 29 25 ∧ a = packetKey p i ∧ (Memory.read u.mem a).getLsbD b = (p.payload.getD i 0).getLsbD b) ∧
    (packetReserved p = false → packetBits p 18 12 = s.pkg.pkgNo → packetBits p 109 103 = s.pkg.pkgNo → packetBits p 3 0 = 0 → Plain s →
      ∃ (u : State) (x : Packet), exec (.zunosPacket p) s = .next u ∧ u.mem = s.mem ∧ u.teams = s.teams ∧ u.wire = s.wire ++ [x] ∧ x.header.toNat % 16 = 3)) ∧
  ∀ (s : State) (x : AmMsg) (l : Launch), s.msgs.find? (fun y => y.id == x.id) = some x → s.launch? x.launch = some l → l.outcome = none →
    (s.msgs.find? fun y => y.fibre == x.fibre && y.core == x.core) = some x → s.handlerCount (s.deliveryCore x.core) < 64 →
    x.payload.length ≤ 16 →
    ∃ (u : State) (q : QTeam), exec (.amDelivery x.id) s = .next u ∧ u.msgs = s.msgs.filter (fun y => y.id != x.id) ∧ u.qteams = s.qteams ++ [q] ∧
      q.launch = x.launch ∧ q.origin = .handler x.fibre ∧ q.kernel = l.handlers.getD x.handler 0 ∧ q.level = .core (s.deliveryCore x.core) ∧ q.live = 0xFFFFFFFF ∧
      q.placed.map RegWrite.reg = (List.range 18).map (fun k => 8 + k) ∧
      ∀ k, k < 18 → ∃ w, q.placed[k]? = some w ∧ w.cls = .uni ∧ SMap.get 0 w.vals 0 =
        if k = 16 then x.sender else if k = 17 then BitVec.ofNat 32 x.payload.length else x.payload.getD k 0

/-- Messages, puts, signals and rows perform, packets and messages arrive: the claims MessagesAndPutsPerform, SignalsAndRowsPerform, PacketsAndMessagesArrive together. (R147, R163, R165, R306, R307, R309, R310, R313, R360, R364) -/
def Obligations.MessagesPerformAndArrive : Prop :=
  MessagesAndPutsPerform ∧ SignalsAndRowsPerform ∧ PacketsAndMessagesArrive

/-- BELLWETHER_BEAT in the turn of an entry whose team has a stack beat to send, with no beat held, transmits the beat under the key of the cycle and the channel and writes no window; an entry without a beat changes nothing. Applying a transmitted clean beat, as the passing of a cycle does, every awake layer of the tower and the shadow hold the enabled bytes of the beat and keep every other byte, a sleeping layer keeps all, and the beat is counted for its team. BEAT_CRC_ERROR holds the next beat as bad and writes no window. The channel test with a beat that has failed 8 resends removes the failed channels. A layer without a team can sleep; it wakes with the shadow in its window and every B slice zero. (R33, R159, R161, R300, R464, R472, R473) -/
def Obligations.BeatsWriteEveryAwakeLayer : Prop :=
  (∀ (s : State) (tower e : Nat), s.carries tower e = none → exec (.bellwetherBeat tower e) s = .next s) ∧
  (∀ (s : State) (tower e : Nat) (t : Team) (o : EngOp) (b : Beat), s.entryTurn tower e = true → SMap.get 0 (s.tower tower).slots e = t.id →
    t.id ≠ 0 → s.team? t.id = some t → s.nextBeat t = some (o, b) → o.kind = .bwst → (s.tower tower).beats = [] →
    ∃ (u : State) (w : Team) (c : Beat) (q : EngOp), exec (.bellwetherBeat tower e) s = .next u ∧ u.mem = s.mem ∧ u.layers = s.layers ∧
      (u.tower tower).shadow = (s.tower tower).shadow ∧ (u.tower tower).beats = [c] ∧ c.key = some (s.now, e / 64) ∧ c.bad = false ∧ c.entry = e ∧
      c.off = b.off ∧ c.data = b.data ∧ c.enable = b.enable ∧ c.gran = none ∧ c.team = t.id ∧ u.team? t.id = some w ∧
      w.beatsApplied = t.beatsApplied ∧ q ∈ w.queues ∧ q.id = o.id ∧ q.pos = o.pos + 1) ∧
  (∀ (s : State) (tower : Nat) (t : Team) (b : Beat), (s.tower tower).beats = [b] → (∀ n, n ≠ tower → (s.tower n).beats = []) → b.key.isSome = true →
    b.bad = false → b.gran = none → s.team? b.team = some t →
    ∃ (u : State) (w : Team), s.applyBeats = u ∧ (u.tower tower).beats = [] ∧ u.team? b.team = some w ∧ w.beatsApplied = t.beatsApplied + 1 ∧
      (∀ d, d / 6 = tower → ∀ j, ((s.layer d).asleep = false → b.covers j →
          SMap.get 0 (u.layer d).window j = BitVec.ofNat 8 (b.data.toNat / 2 ^ (8 * (j - b.off)))) ∧
        ((s.layer d).asleep = true ∨ ¬ b.covers j → SMap.get 0 (u.layer d).window j = SMap.get 0 (s.layer d).window j)) ∧
      ∀ j, (b.covers j → SMap.get 0 (u.tower tower).shadow j = BitVec.ofNat 8 (b.data.toNat / 2 ^ (8 * (j - b.off)))) ∧
        (¬ b.covers j → SMap.get 0 (u.tower tower).shadow j = SMap.get 0 (s.tower tower).shadow j)) ∧
  (∀ (s : State) (tower e : Nat) (rest : List Nat) (o : Option EngOp) (b : Beat), s.entriesNow tower = e :: rest →
    s.carries tower e = some (.beat o b) → (s.tower tower).beats = [] →
    ∃ (u : State) (c : Beat), exec (.beatCrcError tower) s = .next u ∧ u.mem = s.mem ∧ (∀ d, (u.layer d).window = (s.layer d).window) ∧
      (u.tower tower).shadow = (s.tower tower).shadow ∧ (u.tower tower).beats = [c] ∧ c.bad = true ∧ c.entry = e ∧ c.off = b.off ∧
      c.data = b.data ∧ c.enable = b.enable) ∧
  (∀ (s : State) (tower : Nat) (failed : BitVec 8),
    ((∀ b ∈ (s.tower tower).beats, b.bad = false ∨ b.resends < 8) → exec (.bellwetherChannelTest tower failed) s = .next s) ∧
    ((∃ b ∈ (s.tower tower).beats, b.bad = true ∧ 8 ≤ b.resends) → ∃ u : State, exec (.bellwetherChannelTest tower failed) s = .next u ∧
      (u.tower tower).removed = (s.tower tower).removed ||| failed ∧ ∀ n, n ≠ tower → (u.tower n).removed = (s.tower n).removed)) ∧
  (∀ (s : State) (d : Nat),
    (d < 24 → (∀ t ∈ s.teams, dieOf t.core ≠ d) → ∃ u : State, exec (.layerSleep d) s = .next u ∧ u.mem = s.mem ∧ u.teams = s.teams ∧
      (u.layer d).asleep = true ∧ (u.layer d).window = (s.layer d).window) ∧
    ((∃ t ∈ s.teams, dieOf t.core = d) → exec (.layerSleep d) s = .next s)) ∧
  ∀ (s : State) (d : Nat), (s.layer d).asleep = true → ∃ u : State, exec (.layerWake d) s = .next u ∧ u.mem = s.mem ∧ u.teams = s.teams ∧
    (u.layer d).asleep = false ∧ (u.layer d).window = (s.tower (d / 6)).shadow ∧
    (∀ c, dieOf c = d → (u.core c).bslices = []) ∧ ∀ c, dieOf c ≠ d → u.core c = s.core c

/-- COLLECTIVE_START at the head of the coll queue reads the descriptor and begins a member with its fields, marked to complete at once with ERR when R368 finds it bad; of one whose second half lies out of bounds it reads the first, and the member completes at once with ERR. COLLECTIVE_PACKET for a contribution at an own hop with room holds it until the K of its entry are there, then they become one packet: of one, with its payload; of two, combined in rank order; a packet for another package leaves. COLLECTIVE_RETURN at a hop sends the result to every recorded input and frees the record. (R365, R368, R371, R372, R373) -/
def Sys2Proof.Machine.CollectivesBeginAndTravel : Prop :=
  (∀ (s s1 : State) (t : Team) (o : EngOp) (d : Nat), Heads s t 6 o → o.kind = .coll → o.pos = 0 → o.part = 0 → o.got = 0 →
    (o.buf.extent < o.val 0 + 128 → o.buf.va (o.val 0 : Nat) % 64 = 0 →
      Eng.read ⟨t, s.ctxOf t, o⟩ s (o.buf.va (o.val 0 : Nat)) 64 o.buf (decide (o.enc.sc = 0)) = .ok d s1 →
      ∃ (u : State) (m : Member), exec (.collectiveStart t.id) s = .next u ∧ u.mem = s1.mem ∧ u.members = s1.members ++ [m] ∧
      m.op = o.id ∧ m.team = t.id ∧ m.control = d / 2 ^ 32 % 2 ^ 32 ∧ m.sigOff = d / 2 ^ 320 % 2 ^ 32 ∧ m.atOnce = true ∧ m.errs = true) ∧
    (o.val 0 + 128 ≤ o.buf.extent → o.buf.va (o.val 0 : Nat) % 128 = 0 →
      Eng.read ⟨t, s.ctxOf t, o⟩ s (o.buf.va (o.val 0 : Nat)) 128 o.buf (decide (o.enc.sc = 0)) = .ok d s1 →
      ∃ (u : State) (m : Member), exec (.collectiveStart t.id) s = .next u ∧ u.mem = s1.mem ∧ u.members = s1.members ++ [m] ∧ m.op = o.id ∧ m.team = t.id ∧
        m.control = d / 2 ^ 32 % 2 ^ 32 ∧ m.rank = d / 2 ^ 64 % 2 ^ 16 ∧ m.nmem = d / 2 ^ 80 % 2 ^ 16 ∧ m.count = d / 2 ^ 96 % 2 ^ 32 ∧
        m.src = d / 2 ^ 128 % 2 ^ 64 ∧ m.dst = d / 2 ^ 192 % 2 ^ 64 ∧ m.started = s1.now ∧ m.timedOut = false ∧
        m.atOnce = s1.badMember (Member.of s1.nextId t.id o.id s1.now d) o.buf d ∧ m.errs = m.atOnce)) ∧
  (∀ (s : State) (p : CollPacket) (entry : Nat) (rest : List Nat), s.packets.find? (fun q => q.id == p.id) = some p →
    (∀ q ∈ s.packets, q.id = p.id → q = p) → p.id < s.nextId → p.ret = false → p.arrived = 0 → p.route = entry :: rest →
    (s.ownHop p.hop = false → ∃ (u : State) (r : CollRecord), exec (.collectivePacket p.id) s = .next u ∧ u.packets = s.packets.filter (fun q => q.id != p.id) ∧
      u.records = s.records ++ [r] ∧ r.collId = p.collId ∧ r.chunk = p.chunk ∧ r.inputs = [(p.input, decide (p.rlo = 0))] ∧
      ∃ x : Packet, u.wire = s.wire ++ [x] ∧ x.header.toNat % 16 = 6) ∧
    (s.ownHop p.hop = true → s.hopRoom p = false → exec (.collectivePacket p.id) s = .next s) ∧
    (s.ownHop p.hop = true → s.hopRoom p = true → s.combination p.hop p.collId p.chunk = [] →
      (1 < entry % 2 ^ 8 → ∃ u : State, exec (.collectivePacket p.id) s = .next u ∧ u.records = s.records ∧
        u.packets = replaceBy (fun q => q.id == p.id) (fun q => { q with arrived := s.now + 1 }) s.packets) ∧
      (entry % 2 ^ 8 ≤ 1 → p.kind ≠ 2 ∨ p.rlo = 0 → ∃ (u : State) (q : CollPacket), exec (.collectivePacket p.id) s = .next u ∧
        u.packets = s.packets.filter (fun q => q.id != p.id) ++ [q] ∧ q.payload = p.payload ∧ q.route = rest ∧ q.rlo = p.rlo ∧
        q.rhi = max 0 p.rhi ∧ q.ret = bitN entry 9)) ∧
    (∀ c : CollPacket, s.ownHop p.hop = true → s.hopRoom p = true → s.combination p.hop p.collId p.chunk = [c] → c.id ≠ p.id →
      c.rlo < p.rlo → c.kind ≠ 2 → entry % 2 ^ 8 = 2 → ∃ (u : State) (q : CollPacket), exec (.collectivePacket p.id) s = .next u ∧
        u.packets = s.packets.filter (fun q => q.id != p.id && q.id != c.id) ++ [q] ∧ q.rlo = c.rlo ∧ q.rhi = max c.rhi p.rhi ∧
        q.payload = combLists c.type c.op c.payload p.payload ∧ q.ret = bitN entry 9)) ∧
  ∀ (s : State) (p : CollPacket) (r : CollRecord), s.packets.find? (fun q => q.id == p.id) = some p → p.ret = true → p.input % 4 = 1 →
    s.records.find? (fun r => r.hop == p.input / 4 && r.collId == p.collId && r.chunk == p.chunk) = some r → p.id < s.nextId →
    ∃ u : State, exec (.collectiveReturn p.id) s = .next u ∧ u.mem = s.mem ∧ (∀ x ∈ u.records, x.id ≠ r.id) ∧ (∀ q ∈ u.packets, q.id ≠ p.id) ∧
      ∀ i ∈ r.inputs, ∃ q ∈ u.packets, q.input = i.1 ∧ q.collId = p.collId ∧ q.chunk = p.chunk ∧ q.ret = true ∧
        q.payload = if p.kind = 1 ∧ i.2 = false then [] else p.payload

/-- COLLECTIVE_COMPLETE of a member whose chunks have all returned writes its status word, and the operation and the member are gone; of one that is not complete it changes nothing. COLLECTIVE_TIMEOUT acts on a member only after TMO times 1,024 cycles, and marks it with TO. COMBINATION_TIMEOUT frees a record that has waited 2^30 cycles, sends a record of type 13, and changes nothing before. (R317, R373, R375, R474, R475) -/
def Sys2Proof.Machine.CollectivesCompleteOrTimeOut : Prop :=
  (∀ (s : State) (m : Member), s.member? m.id = some m → m.complete = false → exec (.collectiveComplete m.id) s = .next s) ∧
  (∀ (s s1 : State) (m : Member) (t : Team) (o : EngOp) (x : Nat), s.member? m.id = some m → m.complete = true → m.timedOut = false →
    m.sig = false → m.team = t.id → Heads s t 6 o → o.id = m.op → o.mode = 0 → (∀ c : Nat, (s.core c).l1 = [] ∧ (s1.core c).l1 = []) →
    Eng.write ⟨t, s.ctxOf t, o⟩ s (o.buf.va (o.val 0 : Nat)) 4 (1 + 4 * b2n m.errs) o.buf (decide (o.enc.sc = 0)) = .ok x s1 →
    s1.pendingOps o.fid = [] →
    ∃ u : State, exec (.collectiveComplete m.id) s = .next u ∧ u.mem = s1.mem ∧ Gone u t.id o.id ∧ ∀ y ∈ u.members, y.id ≠ m.id) ∧
  (∀ (s : State) (m : Member), s.member? m.id = some m → m.complete = false →
    (s.now < m.started + m.tmo * 1024 → exec (.collectiveTimeout m.id) s = .next s) ∧
    (m.started + m.tmo * 1024 ≤ s.now → ∃ u : State, exec (.collectiveTimeout m.id) s = .next u ∧ ∀ y ∈ u.members, y.id = m.id → y.timedOut = true)) ∧
  ∀ (s : State) (r : CollRecord), s.records.find? (fun x => x.id == r.id) = some r → (∀ x ∈ s.records, x.id = r.id → x = r) →
    (∀ p ∈ s.packets, p.id ≠ r.id) → r.hop ≠ 2 ^ 20 →
    (s.now < r.since + 2 ^ 30 → exec (.combinationTimeout r.id) s = .next s) ∧
    (r.since + 2 ^ 30 ≤ s.now → Plain s → s.ringRoom → ∃ u : State, exec (.combinationTimeout r.id) s = .next u ∧ Records s u 13 1 ∧
      u.packets = s.packets ∧ (∀ x ∈ u.records, x.id ≠ r.id) ∧ ∀ x ∈ s.records, x.id ≠ r.id → x.hop ≠ 2 ^ 20 → x ∈ u.records)

/-- Collectives begin, travel, combine, return, complete and time out: the claims CollectivesBeginAndTravel, CollectivesCompleteOrTimeOut together. (R317, R365, R368, R371, R372, R373, R375, R474, R475) -/
def Obligations.CollectivesRunTheirCourse : Prop :=
  CollectivesBeginAndTravel ∧ CollectivesCompleteOrTimeOut

/-! ## Groups, nodes, tasks and teams on their way (R36 to R40, R54, R58 to R69, R343 to R352) -/

namespace Sys2Proof.Machine

/-- A queued team starts with one vector register for each word of some rows, lane L with row L, and its lanes are those of the rows. -/
structure QTeam.Carries (q : QTeam) (rows : List (List Word)) (k : Nat) : Prop where
  regs : q.placed.length = k
  word : ∀ w, w < k → ∃ x, q.placed[w]? = some x ∧ x.cls = .vec ∧ x.reg = w ∧
    ∀ lane, lane < rows.length → SMap.get 0 x.vals lane = (rows.getD lane []).getD w 0
  live : ∀ lane, lane < 32 → q.live.getLsbD lane = decide (lane < rows.length)

/-- A team that is alone in its cluster and fresh: not saved, and not one of a concurrent grid. -/
abbrev QTeam.Single (q : QTeam) (l : Launch) : Prop := q.clusterSize ≤ 1 ∧ q.restore = none ∧ (l.cls ≠ 0 ∨ q.origin ≠ .grid)

/-- The queued team of a name is this one alone. -/
abbrev State.TheQTeam (s : State) (q : QTeam) : Prop := s.qteams.find? (fun r => r.id == q.id) = some q ∧ ∀ r ∈ s.qteams, r.id = q.id → r = q

/-- A queued team has started on a core of u: its team and its fibres stand as their kernel says, with nothing in its stores (R38 to
R40). -/
structure Started (s u : State) (l : Launch) (q : QTeam) (core : Nat) (t : Team) : Prop where
  team : u.team? q.id = some t
  place : t.core = core ∧ t.launch = l.id ∧ t.index = q.index ∧ t.origin = q.origin ∧ t.kernel = q.kernel
  size : t.groups = (l.kernelAt q.kernel).field 5 0 ∧ t.scratch = 4096 * (l.kernelAt q.kernel).field 40 32 ∧
    t.nacc = (l.kernelAt q.kernel).field 54 50
  blank : t.accs = [] ∧ t.tiles = [] ∧ t.spad = [] ∧ t.locl = 0 ∧ t.locr = 0 ∧ t.queues = [] ∧ t.stopped = false
  queue : u.qteams = s.qteams.filter fun r => r.id != q.id
  count : (u.fibres.filter fun f => f.team == q.id).length = (l.kernelAt q.kernel).field 5 0
  fibres : ∀ f ∈ u.fibres, f.team = q.id → (f.run = .ready ∨ f.run = .current) ∧ f.live = q.live ∧
    ∀ lane, q.live.getLsbD lane = true → f.ip lane = (l.kernelAt q.kernel).entry

/-- Whatever memory holds outside of n storage bytes, the n bytes at a virtual address translate to them. -/
def State.Maps (s : State) (ctx va n key : Nat) (p : Perm) : Prop :=
  ∀ s' : State, s'.pkg.pool = s.pkg.pool → s'.exacts = [] →
    (∀ a, (a < key ∨ key + n ≤ a) → Memory.read s'.mem a = Memory.read s.mem a) →
    ∀ i, i < n → ∃ q : Place, (s'.translateNoCache ctx (va + i) p).1 = .ok q ∧ q.key = key + i

end Sys2Proof.Machine

/-- HEN_DEPOSIT with room: the record stands in the Hen; the 32nd of its key launches the 32 records as one group on the tower, payload in v0 to v15 and key in v16. HEN_FLUSH of a launch without a live lane leaves none of its records in the Hen and queues a group for the key of each. (R69) -/
def Sys2Proof.Machine.HensGatherTheirRecords : Prop :=
  (∀ (s : State) (n : Nat), (s.tower n).deposits = [] → exec (.henDeposit n) s = .next s) ∧
  (∀ (s : State) (n : Nat) (r : HenRec) (rs : List HenRec), (s.tower n).deposits = r :: rs → (s.tower n).hen.length < 8192 →
    let old := (s.tower n).hen.filter fun x => decide (x.key.toNat = r.key.toNat) && x.launch == r.launch
    (old ≠ [] ∨ (s.tower n).openKeys.length < 1024) →
    (old.length < 31 → ∃ u : State, exec (.henDeposit n) s = .next u ∧ (u.tower n).hen = (s.tower n).hen ++ [r] ∧ (u.tower n).deposits = rs ∧
      u.qteams = s.qteams ∧ u.mem = s.mem) ∧
    (old.length = 31 → ∀ l : Launch, s.launch? r.launch = some l → ∃ (u : State) (q : QTeam), exec (.henDeposit n) s = .next u ∧
      (u.tower n).deposits = rs ∧ u.mem = s.mem ∧
      (u.tower n).hen = ((s.tower n).hen.filter fun x => !(decide (x.key.toNat = r.key.toNat) && x.launch == r.launch)) ∧
      u.qteams = s.qteams ++ [q] ∧ q.launch = r.launch ∧ q.origin = .hen ∧ q.kernel = l.cont ∧ q.level = .tower n ∧
      q.Carries ((old ++ [r]).map fun x => x.payload ++ [x.key]) 17)) ∧
  ∀ (s : State) (n : Nat) (l : Launch), s.launch? l.id = some l →
    (s.flushable n l = false → exec (.henFlush n l.id) s = .next s) ∧
    (s.flushable n l = true → ∃ u : State, exec (.henFlush n l.id) s = .next u ∧ u.mem = s.mem ∧
      (u.tower n).hen = ((s.tower n).hen.filter fun r => r.launch != l.id) ∧
      ∀ r ∈ (s.tower n).hen, r.launch = l.id → ∃ q ∈ u.qteams, s.nextId ≤ q.id ∧ q.launch = l.id ∧ q.origin = .hen ∧ q.kernel = l.cont ∧
        q.level = .tower n)

/-- NODE_RECORD: the oldest record on its way joins the batch, whose timer then runs; the 32nd launches the batch as one team with record i in lane i, once fewer than 64 batches wait. GATHER_TIMER_LAPSE launches a batch whose timer is due and changes nothing before. (R59, R348) -/
def Sys2Proof.Machine.NodesBatchTheirRecords : Prop :=
  (∀ (s : State) (l : Launch), s.launch? l.id = some l → l.batch.incoming = [] → exec (.nodeRecord l.id) s = .next s) ∧
  (∀ (s : State) (l : Launch) (r : List Word) (rs : List (List Word)), s.launch? l.id = some l → l.batch.incoming = r :: rs →
    (l.batch.recs.length < 31 → ∃ (u : State) (w : Launch), exec (.nodeRecord l.id) s = .next u ∧ u.mem = s.mem ∧ u.qteams = s.qteams ∧
      u.launch? l.id = some w ∧ w.batch.recs = l.batch.recs ++ [r] ∧ w.batch.incoming = rs ∧
      w.batch.timer = some (l.batch.timer.getD ((l.kernelAt l.kernel).field 223 208 + (if l.state = .saved then 0 else s.now)))) ∧
    (l.batch.recs.length = 31 → 64 ≤ s.batchesWaiting l.id → exec (.nodeRecord l.id) s = .next s) ∧
    (l.batch.recs.length = 31 → s.batchesWaiting l.id < 64 → ∃ (u : State) (w : Launch) (q : QTeam), exec (.nodeRecord l.id) s = .next u ∧ u.mem = s.mem ∧ u.launch? l.id = some w ∧
      w.batch.recs = [] ∧ w.batch.incoming = rs ∧ w.batch.timer = none ∧ w.spawned = l.spawned + 1 ∧ u.qteams = s.qteams ++ [q] ∧
      q.launch = l.id ∧ q.origin = .node ∧ q.kernel = l.kernel ∧
      q.Carries (l.batch.recs ++ [r]) ((l.kernelAt l.kernel).field 195 192 + 1))) ∧
  ∀ (s : State) (l : Launch), s.launch? l.id = some l →
    (s.timerDue l = false → exec (.gatherTimerLapse l.id) s = .next s) ∧
    (s.timerDue l = true → ∃ (u : State) (w : Launch) (q : QTeam), exec (.gatherTimerLapse l.id) s = .next u ∧ u.mem = s.mem ∧ u.launch? l.id = some w ∧
      w.batch.recs = [] ∧ w.batch.timer = none ∧ w.spawned = l.spawned + 1 ∧ u.qteams = s.qteams ++ [q] ∧
      q.launch = l.id ∧ q.origin = .node ∧ q.kernel = l.kernel ∧ q.Carries l.batch.recs ((l.kernelAt l.kernel).field 195 192 + 1))

/-- TASK_START of a Ready task that finds its versions: its structures at hand, it is Placed and queued with the record of its binding block in s8 to s15; on a missing page it waits there; on a failed walk its launch ends. TASK_COMMIT, once every live fibre has arrived and the operations have performed: the task is Committed and the fibres at the commit barrier go on. (R320, R351, R352, R449) -/
def Sys2Proof.Machine.TasksStartAndCommit : Prop :=
  (∀ (s : State) (t : Task), s.task? t.entry = some t → s.taskStarts t = false → exec (.taskStart t.entry) s = .next s) ∧
  (∀ (s s1 s2 : State) (t : Task) (l : Launch) (vs : List (Nat × Nat)) (a b : Lines), s.task? t.entry = some t →
    s.launch? t.launch = some l → l.outcome = none → s.taskStarts t = true → s.supply l t = some vs →
    let s0 := s.modTask t.entry fun k => { k with versions := vs }
    let block := l.field 0x90 8 + 512 * t.entry
    s0.tryLines l.ctx .read (((rangeTiles t.reads).filter fun x => (s0.boundTo l t x).isNone).map fun x => (l.mapAt x, 8)) = (a, s1) →
    s1.tryLines l.ctx .write [(block, 512)] = (b, s2) →
    ∃ u : State, exec (.taskStart t.entry) s = .next u ∧
      (a = .ok → b = .ok → ∃ w q, u.task? t.entry = some w ∧ w.state = .placed ∧ w.versions = vs ∧ u.qteams = s.qteams ++ [q] ∧
        q.launch = l.id ∧ q.origin = .task t.entry ∧ q.kernel = l.kernel ∧ q.level = .pkg ∧ q.live = 0xFFFFFFFF ∧
        q.placed = placedUnis 8 (wordsOf 8 (block % 2 ^ 57 + 8 * 2 ^ 64 + 512 * 2 ^ 96 + 2 ^ 150))) ∧
      (∀ va, (a = .missing va ∧ b ≠ .bad) ∨ (a = .ok ∧ b = .missing va) → u.qteams = s.qteams ∧ ∃ w, u.task? t.entry = some w ∧
        w.heldVa = some va ∧ w.state = t.state ∧ w.versions = vs) ∧
      (a = .bad ∨ b = .bad → (u.launch? l.id).map Launch.outcome = some (some (2, 0xFFFF0003)))) ∧
  (∀ (s : State) (x : Team), s.team? x.id = some x → s.commits x = false → exec (.taskCommit x.id) s = .next s) ∧
  ∀ (s s1 : State) (x : Team) (t : Task) (l : Launch), s.team? x.id = some x → s.commits x = true → s.taskOf x = some t →
    s.launch? x.launch = some l →
    s.tryLines l.ctx .write (((t.versions.map Prod.fst).filter fun y => s.mapTakes t y).map fun y => (l.mapAt y, 8)) = (.ok, s1) →
    ∃ (u : State) (k : Task) (w : Team), exec (.taskCommit x.id) s = .next u ∧ u.task? t.entry = some k ∧ k.state = .committed ∧ u.team? x.id = some w ∧
      w.committed = true ∧ w.commit = ⟨x.commit.phase + 1, []⟩ ∧
      ∀ f ∈ u.fibres, f.team = x.id → f.run ≠ .ended → ∀ lanes, f.waits ≠ .phase 10 lanes

/-- Hen groups, node batches and tasks gather, start and commit: the claims HensGatherTheirRecords, NodesBatchTheirRecords, TasksStartAndCommit together. (R59, R69, R320, R348, R351, R352, R449) -/
def Obligations.GroupsBatchesAndTasksStart : Prop :=
  HensGatherTheirRecords ∧ NodesBatchTheirRecords ∧ TasksStartAndCommit

/-- TEAM_DESCEND: the queue of the highest elected level draws the next team of a launch as it empties; a queued team of a grid whose anchor is homed on another package of the pool goes there; else it goes to the package and to the home tower of its anchor, then, once no team in a die queue of that tower can go on, to the die of most cores that could admit it, then to the core of that die with the fewest teams, the lowest of equals; where none could admit it, it waits in the queue of a die that is empty, or where it is. (R62, R346) -/
def Sys2Proof.Machine.TeamsDescendToTheirCore : Prop :=
  (∀ (s : State) (l : Launch), s.launch? l.id = some l → (∀ q ∈ s.qteams, q.id ≠ l.id) →
    (s.drawable l = false → exec (.teamDescend l.id) s = .next s) ∧
    (s.drawable l = true → (l.kernelAt l.kernel).clusterW * (l.kernelAt l.kernel).clusterH = 0 → ∃ u q,
      exec (.teamDescend l.id) s = .next u ∧ u.mem = s.mem ∧ u.qteams = s.qteams ++ [q] ∧ q.launch = l.id ∧ q.origin = .grid ∧
      q.index = l.nextTeam ∧ q.kernel = l.kernel ∧ q.level = s.topLevel ∧ q.live = 0xFFFFFFFF ∧ q.placed = [] ∧
      (u.launch? l.id).map Launch.nextTeam = some (l.nextTeam + 1))) ∧
  ∀ (s : State) (q : QTeam), s.TheQTeam q → q.clusterSize ≤ 1 →
    let d := (s.kernelOf q).demand
    let goes := fun (u : State) (x : Level) => u.teams = s.teams ∧
      u.qteams = replaceBy (fun r => r.id == q.id) (fun r => { r with level := x }) s.qteams
    (∀ (l : Launch) (p : Place) (s1 : State), s.launch? q.launch = some l → l.field 0 4 / 2 ^ 6 % 4 ≠ 2 →
      s.translateNoCache l.ctx (if l.field 0 4 / 2 ^ 6 % 4 = 1 then (l.field 0x28 8 + l.field 0x30 8 * q.index) % 2 ^ 57
        else l.field 0x40 8 % 2 ^ 57) .read = (.ok p, s1) →
      (q.level = .pkg → p.pkg = s.pkg.pkgNo → ∃ u : State, exec (.teamDescend q.id) s = .next u ∧ goes u (.tower p.tower)) ∧
      (q.level = .tray → p.pkg = s.pkg.pkgNo → ∃ u : State, exec (.teamDescend q.id) s = .next u ∧ goes u .pkg) ∧
      (q.level = .pkg ∨ q.level = .tray ∨ q.level = .rack → p.pkg ≠ s.pkg.pkgNo → p.pkg ∈ s.pkg.pool → q.restore = none → q.origin = .grid →
        ∃ u : State, exec (.teamDescend q.id) s = .next u ∧ goes u (.away p.pkg))) ∧
    (∀ n, q.level = .tower n →
      ((∀ i, i < 6 → s.coresFor (6 * n + i) d = []) → (∃ r ∈ s.qteams, r.level = .die (6 * n)) → exec (.teamDescend q.id) s = .next s) ∧
      ((∃ i, i < 6 ∧ s.coresFor (6 * n + i) d ≠ []) → s.dieQueued n = false → ∃ (u : State) (die : Nat), exec (.teamDescend q.id) s = .next u ∧ u.mem = s.mem ∧ die / 6 = n ∧
        (∀ i, i < 6 → (s.coresFor (6 * n + i) d).length ≤ (s.coresFor die d).length) ∧ goes u (.die die))) ∧
    (∀ die, q.level = .die die →
      (s.coresFor die d = [] → exec (.teamDescend q.id) s = .next s) ∧
      (s.coresFor die d ≠ [] → ∃ (u : State) (c : Nat), exec (.teamDescend q.id) s = .next u ∧ u.mem = s.mem ∧ c ∈ s.coresFor die d ∧
        (∀ b ∈ s.coresFor die d, s.crowd c < s.crowd b ∨ (s.crowd c = s.crowd b ∧ c ≤ b)) ∧ goes u (.core c)))

/-- TEAM_ADMISSION of a fresh team without a cluster that its core can admit, and TEAM_STEAL of one that a core can take: the team starts on that core with its groups, scratchpad and accumulators, its stores blank, its fibres at the entry with its lanes, and leaves the queue; what cannot be admitted or taken changes nothing. (R37, R38, R40, R63, R347) -/
def Sys2Proof.Machine.TeamsStartOnTheirCore : Prop :=
  ∀ (s : State) (q : QTeam) (l : Launch), s.TheQTeam q → s.launch? q.launch = some l → q.Single l → (∀ t ∈ s.teams, t.id ≠ q.id) →
    (∀ f ∈ s.fibres, f.team ≠ q.id) →
    (s.admissible q = false → exec (.teamAdmission q.id) s = .next s) ∧
    (∀ c, s.admissible q = true → q.level = .core c → ∃ (u : State) (t : Team), exec (.teamAdmission q.id) s = .next u ∧ Started s u l q c t ∧
      ((s.core c).l1 = [] → u.mem = s.mem)) ∧
    (∀ c, s.canSteal q c = false → exec (.teamSteal q.id c) s = .next s) ∧
    ∀ c, s.canSteal q c = true → ∃ (u : State) (t : Team), exec (.teamSteal q.id c) s = .next u ∧ Started s u l q c t ∧ ((s.core c).l1 = [] → u.mem = s.mem)

/-- TEAM_END of a team whose fibres have ended and whose operations have performed: the team and its fibres are gone, its slot-table entries are free, its launch counts it, its task is retired. LAUNCH_COMPLETE: nothing of the launch is left, and its record holds status and code. WATCHDOG_EXPIRY ends a launch that has made no progress for 2^36 cycles with status 4 and a record of type 3. Before that each changes nothing. (R54, R344, R450, R451) -/
def Sys2Proof.Machine.TeamsAndLaunchesEnd : Prop :=
  (∀ (s : State) (t : Team) (l : Launch), s.team? t.id = some t → s.launch? t.launch = some l →
    (s.teamOver t = false → exec (.teamEnd t.id) s = .next s) ∧
    (s.teamOver t = true → ∃ (u : State) (w : Launch), exec (.teamEnd t.id) s = .next u ∧ u.team? t.id = none ∧ (∀ f ∈ u.fibres, f.team ≠ t.id) ∧
      (t.entries ≠ [] → ∀ p ∈ (u.tower (towerOf t.core)).slots, p.2 ≠ t.id) ∧ u.launch? t.launch = some w ∧
      (t.origin = .grid → w.ended = l.ended + 1) ∧ (t.origin = .node ∨ t.origin = .hen → w.doneSpawned = l.doneSpawned + 1) ∧
      (∀ e, t.origin = .task e → ∀ k, u.task? e = some k → k.state = .retired) ∧ ((s.core t.core).l1 = [] → u.mem = s.mem))) ∧
  (∀ (s : State) (l : Launch), s.launch? l.id = some l → s.completion l = none → exec (.launchComplete l.id) s = .next s) ∧
  (∀ (s : State) (l : Launch) (status code : Nat), s.launch? l.id = some l → s.completion l = some (status, code) →
    ∃ u : State, exec (.launchComplete l.id) s = .next u ∧ u.launch? l.id = none ∧ (∀ t ∈ u.teams, t.launch ≠ l.id) ∧
      (∀ q ∈ u.qteams, q.launch ≠ l.id) ∧ (∀ x ∈ u.saved, x.team.launch ≠ l.id) ∧
      ∀ key, Plain s → s.Maps l.qctx (l.recVa + 0xF8) 8 key .write → Stores s u key 8 (status % 2 ^ 32 + code * 2 ^ 32)) ∧
  ∀ (s : State) (l : Launch), s.launch? l.id = some l →
    (s.now < l.watchdog + 2 ^ 36 → exec (.watchdogExpiry l.id) s = .next s) ∧
    (l.watchdog + 2 ^ 36 ≤ s.now → l.outcome = none → l.state = .running → ∃ u : State, exec (.watchdogExpiry l.id) s = .next u ∧
      (u.launch? l.id).map Launch.outcome = some (some (4, BitVec.ofNat 32 (s.watchdogCode l))) ∧
      (Plain s → s.ringRoom → Records s u 3 2))

/-- Teams descend, start, are taken and end; launches complete or expire: the claims TeamsDescendToTheirCore, TeamsStartOnTheirCore, TeamsAndLaunchesEnd together. (R37, R38, R40, R54, R62, R63, R344, R346, R347, R450, R451) -/
def Obligations.TeamsDescendStartAndEnd : Prop :=
  TeamsDescendToTheirCore ∧ TeamsStartOnTheirCore ∧ TeamsAndLaunchesEnd

/-! ## Queues and pre-emption (R330 to R337, R345, R354 to R356, R432, R447, R453) -/

namespace Sys2Proof.Machine

/-- The queue of a name is this one alone. -/
abbrev State.TheQueue (s : State) (q : UQueue) : Prop := s.queue? q.id = some q ∧ ∀ x ∈ s.queues, x.id = q.id → x = q

/-- A queue is the one whose command is next, its type and its words are given, and nothing is kept from memory. -/
structure NextCommand (s : State) (q : UQueue) (type c : Nat) : Prop where
  queue : s.TheQueue q
  front : s.frontQueue = some q
  command : s.command q = some c
  kind : cmdType c = type
  good : cmdError c = 0
  plain : Plain s
  tags : s.tags = []

/-- The command of a queue has been consumed. -/
def Consumed (u : State) (q : UQueue) : Prop := ∃ w, u.queue? q.id = some w ∧ w.rdptr = q.rdptr + 1 ∧ w.stoppedBy = q.stoppedBy

/-- A queue stands at its command with an error code, and a record of type 4 has been written when the ring has room. -/
def StopsWith (s u : State) (q : UQueue) (code : Nat) : Prop :=
  (∃ w, u.queue? q.id = some w ∧ w.rdptr = q.rdptr ∧ w.stoppedBy = code) ∧ (s.ringRoom → Records s u 4 1)

/-- A queue waits on the word at a place under a watch. -/
def Watches (s u : State) (q : UQueue) (p : Place) : Prop :=
  u.mem = s.mem ∧ (∃ w, u.queue? q.id = some w ∧ w.rdptr = q.rdptr ∧ w.watching = true) ∧
    ∃ x ∈ u.watches, x.line = lineOf p.key ∧ x.queue = some q.id

end Sys2Proof.Machine

/-- KICK: the scheduler takes the doorbell value as WRPTR and notes the cycle; a queue that is not Mapped takes a free slot, or waits Pending when there is neither a slot nor a victim; more entries than the ring has stop the queue with code 3. IDLE_TIMEOUT begins a save, QCB_SAVE_COMPLETE ends it with the queue Unmapped and its slot free, EPRIO_AGEING raises EPRIO as the wait says. (R332, R333, R336, R337, R447) -/
def Sys2Proof.Machine.KicksMapTheirQueue : Prop :=
  (∀ (s : State) (q : UQueue), s.queue? q.id = some q → s.kickNext q = false → exec (.kick q.id) s = .next s) ∧
  (∀ (s : State) (q : UQueue) (v : Nat), s.TheQueue q → s.kickNext q = true → Plain s → s.tags = [] → s.doorbell q = some v →
    q.stoppedBy = 0 → ∃ (u : State) (w : UQueue), exec (.kick q.id) s = .next u ∧ u.queue? q.id = some w ∧ w.wrptr = BitVec.ofNat 32 v ∧
      w.rdptr = q.rdptr ∧ w.lsig = s.now ∧
      (2 ^ q.log2n < (BitVec.ofNat 32 v - q.rdptr).toNat → StopsWith s u q 3) ∧
      ((BitVec.ofNat 32 v - q.rdptr).toNat ≤ 2 ^ q.log2n → w.stoppedBy = 0 ∧
        (q.state = .mapped → w.state = .mapped ∧ w.slot = q.slot) ∧
        (∀ n, q.state ≠ .mapped → s.freeSlot q.part = some n → w.state = .mapped ∧ w.slot = n) ∧
        (q.state = .unmapped → s.freeSlot q.part = none → (∀ x ∈ s.queues, x.state = .mapped → x.part ≠ q.part) →
          w.state = .pending ∧ w.psince = s.now))) ∧
  (∀ (s : State) (q : UQueue), s.TheQueue q →
    (s.idleDue q = false → exec (.idleTimeout q.id) s = .next s) ∧
    (s.idleDue q = true → ∃ (u : State) (w : UQueue), exec (.idleTimeout q.id) s = .next u ∧ u.mem = s.mem ∧ u.queue? q.id = some w ∧ w.saving = true ∧
      w.slot = q.slot ∧ w.state = .mapped) ∧
    (s.saveReady q = false → exec (.qcbSaveComplete q.id) s = .next s) ∧
    (s.saveReady q = true → q.wrptr = q.rdptr → ∃ (u : State) (w : UQueue), exec (.qcbSaveComplete q.id) s = .next u ∧ u.queue? q.id = some w ∧
      w.state = .unmapped ∧ w.saving = false ∧ w.rdptr = q.rdptr) ∧
    (s.ageingDue q = false → exec (.eprioAgeing q.id) s = .next s) ∧
    (s.ageingDue q = true → ∃ (u : State) (w : UQueue), exec (.eprioAgeing q.id) s = .next u ∧ u.mem = s.mem ∧ u.queue? q.id = some w ∧
      w.eprio = min 7 (q.prio + (s.now - q.psince) / 2 ^ 16)))

/-- LAUNCH as the next command: a record that is accepted becomes a launch; one that is refused gets status 3 and its code in its completion words and starts nothing; the command is consumed either way. A record that is not aligned to 256 stops the queue with code 5. (R331, R339, R342, R446, R447) -/
def Sys2Proof.Machine.LaunchCommandsAreAcceptedOrRefused : Prop :=
  ∀ (s : State) (q : UQueue) (c : Nat), NextCommand s q 1 c →
    (cmdAddr c % 256 ≠ 0 → ∃ u : State, exec (.launch q.id) s = .next u ∧ StopsWith s u q 5) ∧
    (cmdAddr c % 256 = 0 → ∀ v, (s.virtRead q.ctx (cmdAddr c) 0xF8).1 = some v →
      (∀ l, ({ s with nextId := s.nextId + 1 } : State).accept s.nextId q.id (cmdAddr c) q.ctx (toLe 0xF8 v) = .ok l →
        ∃ u : State, exec (.launch q.id) s = .next u ∧ u.mem = s.mem ∧ u.launches = s.launches ++ [l] ∧ Consumed u q) ∧
      (∀ code key, ({ s with nextId := s.nextId + 1 } : State).accept s.nextId q.id (cmdAddr c) q.ctx (toLe 0xF8 v) = .error code →
        s.Maps q.ctx (cmdAddr c + 0xF8) 8 key .write →
        ∃ u : State, exec (.launch q.id) s = .next u ∧ Stores s u key 8 (3 + code % 2 ^ 32 * 2 ^ 32) ∧ u.launches = s.launches ∧ Consumed u q))

/-- BARRIER and SIGNAL are taken only once none of the queue launches is left; SIGNAL writes its value to its 8 bytes and no other. WAIT is consumed once the word has reached the value, and waits under a watch before; WAIT_RECHECK reads the word again. CLOSE closes the open launch of its record, and with none stops the queue with code 6; a misaligned word stops it with code 7. (R331, R345, R447) -/
def Sys2Proof.Machine.OtherCommandsDoTheirWork : Prop :=
  (∀ (s : State) (q : UQueue) (c : Nat), NextCommand s q 2 c → (∀ l ∈ s.launches, l.queue ≠ q.id) ∧
    ∃ u : State, exec (.barrier q.id) s = .next u ∧ u.mem = s.mem ∧ u.launches = s.launches ∧ Consumed u q) ∧
  (∀ (s : State) (q : UQueue) (c : Nat), NextCommand s q 3 c → (∀ l ∈ s.launches, l.queue ≠ q.id) ∧
    (cmdAddr c % 8 ≠ 0 → ∃ u : State, exec (.signal q.id) s = .next u ∧ StopsWith s u q 7) ∧
    (∀ key, cmdAddr c % 8 = 0 → s.Maps q.ctx (cmdAddr c) 8 key .write →
      ∃ u : State, exec (.signal q.id) s = .next u ∧ Stores s u key 8 (cmdValue c) ∧ Consumed u q)) ∧
  (∀ (s : State) (q : UQueue) (c : Nat) (i : Instr),
    (i = .wait q.id ∧ NextCommand s q 4 c) ∨
      (i = .waitRecheck q.id ∧ s.TheQueue q ∧ s.recheckDue q = true ∧ s.command q = some c ∧ Plain s ∧ s.tags = []) →
    (cmdAddr c % 8 ≠ 0 → ∃ u : State, exec i s = .next u ∧ StopsWith s u q 7) ∧
    (cmdAddr c % 8 = 0 → ∀ v, (s.virtRead q.ctx (cmdAddr c) 8).1 = some v →
      (cmdValue c ≤ v → ∃ u : State, exec i s = .next u ∧ u.mem = s.mem ∧ Consumed u q) ∧
      (∀ p, v < cmdValue c → (s.translateNoCache q.ctx (cmdAddr c) .read).1 = .ok p →
        ∃ u : State, exec i s = .next u ∧ Watches s u q p))) ∧
  (∀ (s : State) (q : UQueue), s.queue? q.id = some q → s.recheckDue q = false → exec (.waitRecheck q.id) s = .next s) ∧
  ∀ (s : State) (q : UQueue) (c : Nat), NextCommand s q 5 c →
    let open_ := s.launches.find? fun l => l.recVa == cmdAddr c && l.qctx == q.ctx && l.isOpen && decide (l.outcome = none)
    (open_ = none → ∃ u : State, exec (.close q.id) s = .next u ∧ StopsWith s u q 6) ∧
    (∀ l, open_ = some l → ∃ (u : State) (w : Launch), exec (.close q.id) s = .next u ∧ u.mem = s.mem ∧ Consumed u q ∧ u.launch? l.id = some w ∧ w.isOpen = false)

/-- Kicks map queues, and each queue command does its work or stops its queue: the claims KicksMapTheirQueue, LaunchCommandsAreAcceptedOrRefused, OtherCommandsDoTheirWork together. (R331, R332, R333, R336, R337, R339, R342, R345, R446, R447) -/
def Obligations.QueuesTakeTheirCommands : Prop :=
  KicksMapTheirQueue ∧ LaunchCommandsAreAcceptedOrRefused ∧ OtherCommandsDoTheirWork

/-- ADMISSION_WAIT_PREEMPT: once a launch of higher priority has waited long, the first victim whose save pool has room stops whole. PREEMPTION_STOP: a stopped team that can be saved is saved to its area and leaves its core; with an uncorrectable unit its launch ends instead; a launch without resident teams is Saved. Before that both change nothing. (R354, R355, R452, R466) -/
def Sys2Proof.Machine.LaunchesAreStoppedAndSaved : Prop :=
  (∀ (s : State) (x : Launch), s.launch? x.id = some x →
    (s.waitsLong x = false → exec (.admissionWaitPreempt x.id) s = .next s) ∧
    (∀ v rest, s.waitsLong x = true → s.victims ((s.prioOf x).getD 0) = v :: rest → v.cls ≠ 2 → s.launch? v.id = some v →
      (s.findRun v.ctx (s.areaSize v (s.teamsOf v.id) * (s.teamsOf v.id).length)).isSome = true →
      ∃ u : State, exec (.admissionWaitPreempt x.id) s = .next u ∧ u.mem = s.mem ∧ (u.launch? v.id).map Launch.state = some .stopping ∧
        (∀ t ∈ u.teams, t.launch = v.id → t.stopped = true) ∧ ∀ k, k ≠ v.id → u.launch? k = s.launch? k)) ∧
  ∀ (s : State) (x : Launch), s.launch? x.id = some x →
    (s.stopMoves x = false → exec (.preemptionStop x.id) s = .next s) ∧
    (x.outcome = none → s.toSave x.id = [] → s.stopDone x = true →
      ∃ u : State, exec (.preemptionStop x.id) s = .next u ∧ u.mem = s.mem ∧ (u.launch? x.id).map Launch.state = some .saved) ∧
    (∀ t r, x.outcome = none → s.toSave x.id = [t] → x.savedRuns.getLast? = some r →
      (t.bad ≠ [] → ∃ u : State, exec (.preemptionStop x.id) s = .next u ∧ u.teams = s.teams ∧
        (u.launch? x.id).map Launch.outcome = some (some (2, 0xFFFF0004))) ∧
      (t.bad = [] → t.origin = .grid → ∃ (u : State) (y : _), exec (.preemptionStop x.id) s = .next u ∧ u.team? t.id = none ∧
        u.saved = s.saved ++ [y] ∧ y.team.id = t.id ∧ (s.draws = [] → y.team = t) ∧ y.area = r.base + r.size * r.used ∧ y.run = r.base) ∧
      (∀ e, t.bad = [] → t.origin = .task e → t.committed = false → ∃ u : State, exec (.preemptionStop x.id) s = .next u ∧
        u.team? t.id = none ∧ u.saved = s.saved ∧ ∀ k, u.task? e = some k → k.state = .ready ∧ k.versions = []))

/-- RESTORE of a saved launch that can be placed: its save areas good, its teams are queued for their restore; an area that fails its checks ends the launch with code 0xFFFF0002 and restores none of its teams. Before that it changes nothing. (R355, R453) -/
def Sys2Proof.Machine.LaunchesAreRestored : Prop :=
  ∀ (s : State) (x : Launch), s.launch? x.id = some x →
    (s.restorable x = false → exec (.restore x.id) s = .next s) ∧
    (s.restorable x = true → s.areasOk x = true → s.savedOf x.id ≠ [] → ∃ u : State, exec (.restore x.id) s = .next u ∧ u.mem = s.mem ∧
      u.teams = s.teams ∧ (u.launch? x.id).map Launch.state = some .restoring ∧
      ∀ y ∈ s.saved, y.team.launch = x.id → ∃ q ∈ u.qteams, q.launch = x.id ∧ q.restore = some y.team.id ∧ q.index = y.team.index) ∧
    (s.restorable x = true → s.areasOk x = false → ∃ u : State, exec (.restore x.id) s = .next u ∧ u.teams = s.teams ∧
      (u.launch? x.id).map Launch.outcome = some (some (2, 0xFFFF0002)) ∧ (∀ q ∈ u.qteams, q.launch = x.id → q.restore = none) ∧
      (Plain s → s.ringRoom → Records s u 7 2))

/-- CLUSTER_STAGE_RELEASE of a stage with one key: after 64 cycles the key leaves for core 3, which holds it and writes one record of type 1, or only adds its waiters when it holds the key already; before, it stays. (R431, R432, R433) -/
def Sys2Proof.Machine.StagesReleaseTheirKeys : Prop :=
  ∀ (s : State) (die : Nat) (x : StageEntry), (s.layer die).stage = [x] → (∀ c ∈ s.cores, dieOf c.id = die → c.filter = []) →
    (s.now < x.since + 64 → ∃ u : State, exec (.clusterStageRelease die) s = .next u ∧ u.keys = s.keys ∧ (u.layer die).stage = [x] ∧ u.mem = s.mem) ∧
    (x.since + 64 ≤ s.now → (∃ y ∈ s.keys, y.ctx = x.ctx ∧ y.va = x.va) → ∃ u : State, exec (.clusterStageRelease die) s = .next u ∧
      u.keys.length = s.keys.length ∧ (u.layer die).stage = [] ∧ u.mem = s.mem) ∧
    (x.since + 64 ≤ s.now → (∀ y ∈ s.keys, ¬ (y.ctx = x.ctx ∧ y.va = x.va)) → ∃ u : State, exec (.clusterStageRelease die) s = .next u ∧
      u.keys = s.keys ++ [x] ∧ (u.layer die).stage = [] ∧ (Plain s → s.ringRoom → Records s u 1 1))

/-- Launches are stopped, saved and restored, and fault keys reach core 3: the claims LaunchesAreStoppedAndSaved, LaunchesAreRestored, StagesReleaseTheirKeys together. (R354, R355, R431, R432, R433, R452, R453, R466) -/
def Obligations.LaunchesStopAndReturn : Prop :=
  LaunchesAreStoppedAndSaved ∧ LaunchesAreRestored ∧ StagesReleaseTheirKeys

/-! ## Firmware (R330, R397 to R408, R476 to R479) -/

namespace Sys2Proof.Machine

/-- The core and the code of the commands that have a step of their own (R400). -/
def mailStep : Instr → Option (Nat × Nat)
  | .attest => some (0, 1)
  | .accept => some (1, 1)
  | .pair => some (1, 3)
  | .register => some (2, 1)
  | .unregister => some (2, 2)
  | .plimit => some (2, 3)
  | .preempt => some (2, 4)
  | .inval => some (3, 1)
  | .aperture => some (3, 2)
  | .update => some (7, 1)
  | .retire => some (7, 2)
  | _ => none

/-- The latched request of a mailbox has been carried out: its status word, of a status, its TAG and DONE, is still to be written
(R398, R399). -/
structure Replies (s u : State) (n status : Nat) : Prop where
  box : { u.mailbox n with results := (s.mailbox n).results, answer := none } = s.mailbox n
  answer : (u.mailbox n).answer = some (BitVec.ofNat 32 (status + (s.asking n).request.toNat / 2 ^ 8 % 2 ^ 8 * 2 ^ 8 + 2 ^ 31))
  others : ∀ k, k ≠ n → u.mailbox k = s.mailbox k

/-- A command of a mailbox is latched and not carried out yet. -/
abbrev Latched (s : State) (n code : Nat) : Prop := s.asked n code = true ∧ (s.mailbox n).latched.isSome = true ∧ (s.mailbox n).answer = none

/-- A command of a mailbox is latched, and the package may carry it out (R399, R406). -/
abbrev Serves (s : State) (n code : Nat) : Prop := Latched s n code ∧ s.pkg.displaced = false

/-- Nothing but the mailbox of a core changes. -/
abbrev OnlyMailbox (s u : State) (n : Nat) : Prop :=
  u.mem = s.mem ∧ u.teams = s.teams ∧ u.queues = s.queues ∧ u.launches = s.launches ∧ ∀ k, k ≠ n → u.mailbox k = s.mailbox k

/-- A step answers a next state in which a command has been carried out with a status and some other facts hold. -/
def Ends (i : Instr) (s : State) (n status : Nat) (post : State → Prop) : Prop :=
  ∃ u : State, exec i s = .next u ∧ Replies s u n status ∧ post u

end Sys2Proof.Machine

/-- A mailbox step of a command that is not asked for changes nothing. The first step of one latches the request with its arguments and clears GO and DONE, a later one carries it out and leaves its results, and the last one writes the status word with DONE. On a former primary every command is carried out with status 2. A request with a code that is no command gets status 1, and ELECT notes what it elects. (R398, R399, R400, R406) -/
def Sys2Proof.Machine.MailboxesLatchAndComplete : Prop :=
  (∀ (i : Instr) (s : State) (n code : Nat), mailStep i = some (n, code) →
    (s.asked n code = false → exec i s = .next s) ∧
    (s.asked n code = true → (s.mailbox n).latched = none → ∃ u : State, exec i s = .next u ∧ OnlyMailbox s u n ∧
      u.mailbox n = { s.mailbox n with
        request := (s.mailbox n).request &&& 0x7FFFFFFF, status := (s.mailbox n).status &&& 0x7FFFFFFF,
        latched := some ((s.mailbox n).request &&& 0x7FFFFFFF, (s.mailbox n).args) }) ∧
    (∀ w, s.asked n code = true → (s.mailbox n).latched.isSome = true → (s.mailbox n).answer = some w → ∃ u : State, exec i s = .next u ∧
      OnlyMailbox s u n ∧ u.mailbox n = { s.mailbox n with status := w, latched := none, answer := none }) ∧
    (Latched s n code → s.pkg.displaced = true → Ends i s n 2 fun u => OnlyMailbox s u n)) ∧
  ∀ (s : State) (n : Nat), let code := (s.asking n).code
    ((∃ i, mailStep i = some (n, code)) ∨ s.requested n = false → exec (.mailboxUnknownCommand n) s = .next s) ∧
    ((∀ i, mailStep i ≠ some (n, code)) → ¬ (n = 1 ∧ code = 2) → Serves s n code →
      Ends (.mailboxUnknownCommand n) s n 1 fun u => OnlyMailbox s u n) ∧
    (n = 1 → code = 2 → Serves s 1 2 → (s.asking 1).arg 0 = 1 ∨ (s.asking 1).arg 0 = 2 →
      Ends (.mailboxUnknownCommand 1) s 1 0 fun u => (s.asking 1).arg 0 ∈ u.pkg.elected ∧ OnlyMailbox s u 1)

/-- ATTEST makes a report over the nonce, the measurement, the versions, the signature of the core map, the accepted features and the count of updates, and answers its length and count. ACCEPT takes a vector once, if every feature of it is offered, and refuses any other. PAIR names a partner and a role, and refuses a role that is none. (R404, R405, R406) -/
def Sys2Proof.Machine.AttestAcceptAndPairAnswer : Prop :=
  ∀ s : State,
    (Serves s 0 1 → Ends .attest s 0 0 fun u => u.mem = s.mem ∧ u.pkg.attests = s.pkg.attests + 1 ∧
      ∃ r, u.pkg.report = some r ∧ r.nonce = (s.asking 0).args.take 8 ∧ r.measurement = s.pkg.measurement ∧
        r.versions = s.pkg.fw.map FwCore.version ∧ r.signature = s.pkg.signature ∧ r.accepted = s.pkg.accepted ∧
        r.updates = s.pkg.updates ∧ (u.mailbox 0).results.head? = some 1024) ∧
    (Serves s 1 1 →
      let v := BitVec.ofNat 128 ((s.asking 1).long 0 + 2 ^ 64 * (s.asking 1).long 2)
      (s.pkg.acceptDone = false ∧ v &&& ~~~s.pkg.offered = 0 → Ends .accept s 1 0 fun u => u.pkg.accepted = v ∧ u.pkg.acceptDone = true) ∧
      (s.pkg.acceptDone = true ∨ v &&& ~~~s.pkg.offered ≠ 0 → Ends .accept s 1 2 fun u => u.pkg.accepted = s.pkg.accepted ∧
        u.pkg.acceptDone = s.pkg.acceptDone)) ∧
    (Serves s 1 3 →
      ((s.asking 1).arg 1 ≤ 1 → Ends .pair s 1 0 fun u => u.pkg.pair = some ((s.asking 1).arg 0, (s.asking 1).arg 1)) ∧
      (1 < (s.asking 1).arg 1 → Ends .pair s 1 2 fun u => u.pkg.pair = s.pkg.pair))

/-- REGISTER of a block that R330 permits adds the queue, Unmapped; any other is refused. UNREGISTER removes the queue of a block, and refuses a block that is not registered. PLIMIT sets the limit of a partition within its range. PREEMPT stops the running launch of a record whole when its save pool has room, and is refused otherwise. (R330, R333, R354, R400, R452) -/
def Sys2Proof.Machine.QueueCommandsOfTheDriverAnswer : Prop :=
  ∀ s : State, let m := s.asking 2
    (Serves s 2 1 →
      (m.long 0 % 64 ≠ 0 ∨ (s.registered (m.long 0) (m.long 2)).isSome = true ∨ 2 ^ 46 ≤ m.long 2 ∨ s.inPool (m.long 2) = false →
        Ends .register s 2 2 fun u => u.queues = s.queues) ∧
      (∀ v q, m.long 0 % 64 = 0 → s.registered (m.long 0) (m.long 2) = none → m.long 2 < 2 ^ 46 → s.inPool (m.long 2) = true →
        (s.virtRead (m.long 2) (m.long 0) 64).1 = some v → parseQcb s.nextId (m.long 0) (m.long 2) v = some q →
        Ends .register s 2 0 fun u => u.queues.length = s.queues.length + 1 ∧ ∃ x ∈ u.queues, x.id = s.nextId ∧ x.qcb = m.long 0 ∧
          x.ctx = m.long 2 ∧ x.state = .unmapped ∧ x.rdptr = q.rdptr ∧ x.wrptr = q.wrptr)) ∧
    (Serves s 2 2 →
      (s.registered (m.long 0) (m.long 2) = none → Ends .unregister s 2 2 fun u => u.queues = s.queues) ∧
      (∀ q, s.registered (m.long 0) (m.long 2) = some q → Ends .unregister s 2 0 fun u => (∀ x ∈ u.queues, x.id ≠ q.id) ∧
        (q.state ≠ .mapped → Plain s → u.mem = s.mem))) ∧
    (Serves s 2 3 →
      (m.arg 0 ≤ 255 → 1 ≤ m.arg 1 → m.arg 1 ≤ 64 → Ends .plimit s 2 0 fun u => u.limitOf (m.arg 0) = m.arg 1) ∧
      (255 < m.arg 0 ∨ m.arg 1 < 1 ∨ 64 < m.arg 1 → Ends .plimit s 2 2 fun u => u.pkg.plimits = s.pkg.plimits)) ∧
    (Serves s 2 4 → let found := s.launches.find? fun l => l.recVa == m.long 0 && l.runs
      (found = none → Ends .preempt s 2 2 fun u => u.launches = s.launches) ∧
      (∀ l, found = some l → s.teamsOf l.id ≠ [] →
        (s.findRun l.ctx (s.areaSize l (s.teamsOf l.id) * (s.teamsOf l.id).length) = none →
          Ends .preempt s 2 2 fun u => u.launches = s.launches ∧ u.teams = s.teams) ∧
        ((s.findRun l.ctx (s.areaSize l (s.teamsOf l.id) * (s.teamsOf l.id).length)).isSome = true →
          Ends .preempt s 2 0 fun u => (u.launch? l.id).map Launch.state = some .stopping ∧
            ∀ t ∈ u.teams, t.launch = l.id → t.stopped = true)))

/-- INVAL, once no request of its context is on its way and with no side-log entry, leaves no cached translation and no key of its range, and no fibre held on it. APERTURE maps each of its pages to its 64 KiB of a context, or unmaps them. UPDATE of an image that verifies hands the function of its core over, and then counts the update with the new image, or is refused with the old one; one that does not verify is refused. RETIRE puts an active core or a slice that is not the last in the line of its tower, and refuses anything else. (R401, R402, R407, R408, R434) -/
def Obligations.ChangesOfTheDriverAnswer : Prop :=
  ∀ s : State, let m := s.asking 3
    let r : Range := ⟨m.long 0, m.long 2, m.long 4⟩
    (Serves s 3 1 → s.quiet (m.long 0) = false → exec .inval s = .next s) ∧
    (Serves s 3 1 → s.quiet (m.long 0) = true → s.sideLog = [] → Ends .inval s 3 0 fun u =>
      (∀ c ∈ u.cores, ∀ e ∈ c.tlb, ¬ (e.ctx = m.long 0 ∧ r.covers (e.page * 2 ^ levelShift e.level) (2 ^ levelShift e.level) = true)) ∧
      (∀ x ∈ u.keys, r.hasGranule x.ctx x.va = false) ∧
      ∀ f ∈ u.fibres, f.run = .held → ∀ ctx vas, f.waits = .granules ctx vas → ∀ va ∈ vas, r.hasGranule ctx va = false) ∧
    (Serves s 3 2 →
      (2 ^ 20 < m.arg 0 + m.arg 5 → Ends .aperture s 3 2 fun u => u.pkg.aperture = s.pkg.aperture) ∧
      (m.arg 0 + m.arg 5 ≤ 2 ^ 20 → Ends .aperture s 3 0 fun u => ∀ page j, j < 65536 →
        (page < m.arg 0 ∨ m.arg 0 + m.arg 5 ≤ page → u.behind (page * 65536 + j) = s.behind (page * 65536 + j)) ∧
        (m.arg 0 ≤ page → page < m.arg 0 + m.arg 5 → u.behind (page * 65536 + j) =
          if m.long 1 = 0 then none else some (m.long 1, m.long 3 + 65536 * (page - m.arg 0) + j)))) ∧
    (Serves s 7 1 →
      let n := (s.asking 7).arg 0
      let image := (s.newImage (s.asking 7)).1
      (n < 1 ∨ 7 < n → Ends .update s 7 2 fun u => u.pkg.fw = s.pkg.fw) ∧
      (1 ≤ n → n ≤ 7 → s.pkg.fw.length = 8 →
        ((s.fwCore n).handover = none → Config.verifies n image = false → Ends .update s 7 2 fun u => u.pkg.fw = s.pkg.fw ∧
          u.pkg.updates = s.pkg.updates) ∧
        ((s.fwCore n).handover = none → Config.verifies n image = true → ∃ u : State, exec .update s = .next u ∧ u.mailbox 7 = s.mailbox 7 ∧
          (u.fwCore n).handover = some image ∧ u.pkg.measurement = extended s.pkg.measurement image ∧ u.pkg.updates = s.pkg.updates) ∧
        ∀ new, (s.fwCore n).handover = some new →
          Ends .update s 7 0 (fun u => u.pkg.updates = s.pkg.updates + 1 ∧ (u.fwCore n).image = some new ∧ (u.fwCore n).handover = none ∧ u.mem = s.mem) ∨
          Ends .update s 7 2 fun u => u.pkg.updates = s.pkg.updates ∧ (u.fwCore n).image = (s.fwCore n).image ∧ (u.fwCore n).handover = none ∧ u.mem = s.mem)) ∧
    (Serves s 7 2 → let a := (s.asking 7).arg 1
      let n := (s.asking 7).arg 2
      ((s.asking 7).arg 0 = 0 → a < 24 → n < 96 → s.pkg.isActive a n = true → Ends .retire s 7 0 fun u =>
        (u.tower (a / 6)).waitingChanges = (s.tower (a / 6)).waitingChanges ++ [(0, 96 * a + n, 0)]) ∧
      ((s.asking 7).arg 0 = 1 → a < 4 → n ∈ (s.tower a).slices → 2 ≤ (s.tower a).slices.length → Ends .retire s 7 0 fun u =>
        (u.tower a).waitingChanges = (s.tower a).waitingChanges ++ [(1, n, 2)]) ∧
      (1 < (s.asking 7).arg 0 ∨ ((s.asking 7).arg 0 = 0 ∧ (24 ≤ a ∨ 96 ≤ n)) ∨ ((s.asking 7).arg 0 = 1 ∧ 4 ≤ a) →
        Ends .retire s 7 2 fun u => u.towers = s.towers))

/-- Each mailbox command is latched, does its work or is refused, and completes with its status word: the claims MailboxesLatchAndComplete, AttestAcceptAndPairAnswer, QueueCommandsOfTheDriverAnswer together. (R330, R333, R354, R398, R399, R400, R404, R405, R406, R452) -/
def Obligations.MailboxCommandsAnswer : Prop :=
  MailboxesLatchAndComplete ∧ AttestAcceptAndPairAnswer ∧ QueueCommandsOfTheDriverAnswer

/-- PACKAGE_RESET keeps memory and the core map, clears every fibre, team, launch, queue and core, and begins the boot: every core verified, the package waits for coolant; else it stays down with its status. COOLANT_FLOW with flow then brings the towers up with the signature of the core map and a port table; without flow it says so; at any other time it only notes the flow. (R12, R32, R403, R363) -/
def Sys2Proof.Machine.ThePackageBoots : Prop :=
  (∀ s : State, ∃ u : State, exec .packageReset s = .next u ∧ u.mem = s.mem ∧ u.now = 0 ∧ u.fibres = [] ∧ u.teams = [] ∧ u.launches = [] ∧
    u.queues = [] ∧ u.cores = [] ∧ u.towers = [] ∧ u.layers = [] ∧ u.ops = [] ∧ u.exacts = [] ∧ u.pkg.coreMap = s.pkg.coreMap ∧
    u.pkg.acceptDone = false ∧ u.pkg.fatal = none ∧
    ((u.pkg.boot = .coolant ∧ ∀ f ∈ u.pkg.fw, f.down = false) ∨ (u.pkg.boot = .failed ∧ u.pkg.bootStatus = 2))) ∧
  ∀ (s : State) (flows : Bool),
    (s.pkg.boot ≠ .coolant → exec (.coolantFlow flows) s = .next { s with pkg := { s.pkg with coolant := flows } }) ∧
    (s.pkg.boot = .coolant → flows = false → ∃ u : State, exec (.coolantFlow flows) s = .next u ∧ u.pkg.boot = .coolant ∧ u.pkg.bootStatus = 3) ∧
    (s.pkg.boot = .coolant → flows = true → ∃ u : State, exec (.coolantFlow flows) s = .next u ∧ u.pkg.boot = .up ∧ u.pkg.bootStatus = 1 ∧
      u.mem = s.mem ∧ u.pkg.signature = mapSignature s.pkg.coreMap ∧ u.pkg.ports.length = 18 ∧
      ∀ p ∈ u.pkg.ports, p.toNat / 2 ^ 25 = 0 ∧ (p.getLsbD 0 = false → p = 0) ∧
        (p.getLsbD 0 = true → p.toNat / 2 % 16 = 8 ∨ p.toNat / 2 % 16 = 4 ∨ p.toNat / 2 % 16 = 2))

/-- THERMAL_THROTTLE idles a tower, THERMAL_THROTTLE_END ends that. THERMAL_STOP stops the tower, with a record of type 8 and severity 2, and stops a launch that runs there whole. NOISE_SOURCE_OFFLINE takes the noise source of one core offline. No other tower or core changes. (R30, R31, R243, R354) -/
def Sys2Proof.Machine.HeatAndNoiseActOnTheirTower : Prop :=
  (∀ (s : State) (n : Nat), ∃ u : State, exec (.thermalThrottle n) s = .next u ∧ u.mem = s.mem ∧ (u.tower n).idle = true ∧
    (u.tower n).stopped = (s.tower n).stopped ∧ ∀ k, k ≠ n → u.tower k = s.tower k) ∧
  (∀ (s : State) (n : Nat), ∃ u : State, exec (.thermalThrottleEnd n) s = .next u ∧ u.mem = s.mem ∧ (u.tower n).idle = false ∧
    (u.tower n).stopped = false ∧ ∀ k, k ≠ n → u.tower k = s.tower k) ∧
  (∀ (s : State) (n : Nat) (temp : BitVec 32), Plain s → s.ringRoom →
    (s.launches = [] → ∃ u : State, exec (.thermalStop n temp) s = .next u ∧ (u.tower n).stopped = true ∧ Records s u 8 2 ∧
      ∀ k, k ≠ n → u.tower k = s.tower k) ∧
    (∀ l, s.launches = [l] → l.outcome = none → l.state = .running → (∃ t ∈ s.teams, t.launch = l.id ∧ towerOf t.core = n) →
      (s.findRun l.ctx (s.areaSize l (s.teamsOf l.id) * (s.teamsOf l.id).length)).isSome = true →
      ∃ u : State, exec (.thermalStop n temp) s = .next u ∧ (u.tower n).stopped = true ∧ Records s u 8 2 ∧
        (u.launch? l.id).map Launch.state = some .stopping ∧ ∀ t ∈ u.teams, t.launch = l.id → t.stopped = true)) ∧
  ∀ (s : State) (c : Nat), ∃ u : State, exec (.noiseSourceOffline c) s = .next u ∧ u.mem = s.mem ∧ (u.core c).noiseOn = false ∧
    ∀ k, k ≠ c → u.core k = s.core k

/-- HEARTBEAT of the first core whose beat is due counts it. HEARTBEAT_TIMEOUT restarts the first core whose beat has stood still, with a record of severity 1; a second time within 2^34 cycles is fatal. CORE0_FAILURE makes the package fatal with a record of severity 3, and every launch ends. STANDBY_TAKEOVER makes the standby primary after 2^24 cycles, and a primary refuse commands. Nothing due, nothing changes. (R406, R477, R478, R479) -/
def Sys2Proof.Machine.FirmwareCoresBeatAndFail : Prop :=
  (∀ s : State,
    ((∀ n, n < 8 → s.beatDue n = false) → exec .heartbeat s = .next s) ∧
    (∀ n, s.pkg.fw.length = 8 → n < 8 → s.beatDue n = true → (∀ k, k < n → s.beatDue k = false) →
      ∃ u : State, exec .heartbeat s = .next u ∧ u.mem = s.mem ∧ (u.fwCore n).heartbeat = (s.fwCore n).heartbeat + 1 ∧
        (u.fwCore n).lastBeat = s.now ∧ ∀ k, k ≠ n → u.fwCore k = s.fwCore k) ∧
    ((∀ n, n < 8 → s.beatLost n = false) → exec .heartbeatTimeout s = .next s) ∧
    (∀ n, s.pkg.fw.length = 8 → n < 8 → s.beatLost n = true → (∀ k, k < n → s.beatLost k = false) → Plain s → s.ringRoom →
      ((∀ c ∈ (s.fwCore n).failures, c + 2 ^ 34 < s.now) → ∃ u : State, exec .heartbeatTimeout s = .next u ∧ u.pkg.fatal = none ∧
        (u.fwCore n).failures = [s.now] ∧ Records s u 15 1) ∧
      ((∃ c ∈ (s.fwCore n).failures, s.now ≤ c + 2 ^ 34) → ∃ u : State, exec .heartbeatTimeout s = .next u ∧ u.pkg.fatal = some 0xFFFF0007 ∧
        (∀ l ∈ u.launches, l.outcome ≠ none) ∧ Records s u 15 3)) ∧
    (s.pkg.fatal = none → ∃ u : State, exec .core0Failure s = .next u ∧ u.pkg.fatal = some 0xFFFF0006 ∧ u.launches.length = s.launches.length ∧
      (∀ l ∈ u.launches, l.outcome ≠ none) ∧ (Plain s → s.ringRoom → Records s u 15 3)) ∧
    (s.pkg.pair = none → exec .standbyTakeover s = .next s) ∧
    ∀ partner role, s.pkg.pair = some (partner, role) →
      (s.now < s.pkg.pairBeat + 2 ^ 24 → exec .standbyTakeover s = .next s) ∧
      (s.pkg.pairBeat + 2 ^ 24 ≤ s.now → ∃ u : State, exec .standbyTakeover s = .next u ∧ u.mem = s.mem ∧
        (role = 1 → u.pkg.pair = some (partner, 0) ∧ u.pkg.displaced = s.pkg.displaced) ∧ (role ≠ 1 → u.pkg.displaced = true)))

/-- The package boots, towers idle and stop, firmware cores beat, fail and take over: the claims ThePackageBoots, HeatAndNoiseActOnTheirTower, FirmwareCoresBeatAndFail together. (R12, R30, R31, R32, R243, R354, R363, R403, R406, R477, R478, R479) -/
def Obligations.ThePackageBootsBeatsAndFails : Prop :=
  ThePackageBoots ∧ HeatAndNoiseActOnTheirTower ∧ FirmwareCoresBeatAndFail

/-! ## The host (R397, R402) and changes in service (R12, R138, R408) -/

namespace Sys2Proof.Machine

/-- n bytes of the aperture lead to the storage bytes from a key on, for an access. -/
def State.Leads (s : State) (off n key : Nat) (p : Perm) : Prop := ∀ i, i < n → ∃ q : Place, s.reach (off + i) p = .place q ∧ q.key = key + i

end Sys2Proof.Machine

/-- HOST_WINDOW_WRITE of the request word of a mailbox sets its writable bits, of an argument its word, and changes nothing anywhere else. PCIE_POSTED_WRITE and a store of an application core write the bytes that the aperture leads to and no other, and nothing where nothing is mapped; a posted write with Relaxed Ordering waits, and does so when it performs. PCIE_READ and a load return those bytes, or all ones where nothing is mapped. An AMO returns the old value and writes its result; a fence that is an acquire promotes the cores that loads have heard of, and any other changes nothing. (R397, R399, R402) -/
def Sys2Proof.Machine.TheHostReachesMemory : Prop :=
  (∀ (s : State) (off : Nat) (w : Word),
    (off < 0x10000 ∨ 0x10800 ≤ off ∨ 0x40 ≤ off % 0x100 ∨ off % 4 ≠ 0 → exec (.hostWindowWrite off w) s = .next s) ∧
    (∀ n, n < 8 → s.pkg.mailboxes.length = 8 →
      (off = 0x10000 + 0x100 * n → ∃ u : State, exec (.hostWindowWrite off w) s = .next u ∧ u.mem = s.mem ∧
        u.mailbox n = { s.mailbox n with request := w &&& 0x8000FFFF } ∧ ∀ k, k ≠ n → u.mailbox k = s.mailbox k) ∧
      (∀ j, j < 15 → off = 0x10000 + 0x100 * n + 4 + 4 * j → ∃ u : State, exec (.hostWindowWrite off w) s = .next u ∧ u.mem = s.mem ∧
        u.mailbox n = { s.mailbox n with args := (s.mailbox n).args.set j w } ∧ ∀ k, k ≠ n → u.mailbox k = s.mailbox k))) ∧
  (∀ (s : State) (off : Nat) (data : List Byte), exec (.pciePostedWrite off data true) s =
    .next { s with pkg := { s.pkg with posted := s.pkg.posted ++ [(off, data)] } }) ∧
  (∀ (s : State) (off key : Nat) (data : List Byte), s.pkg.posted = [(off, data)] → Plain s → s.Leads off data.length key .write →
    Stores s s.performPosted key data.length (leN data) ∧ s.performPosted.pkg.posted = []) ∧
  (∀ (s : State) (off : Nat) (data : List Byte) (i : Instr),
    (i = .pciePostedWrite off data false ∧ s.pkg.posted = []) ∨ i = .appCoreAccess (.store off data) → Plain s →
    ((∀ k, k < data.length → s.behind (off + k) = none) → ∃ u : State, exec i s = .next u ∧ u.mem = s.mem) ∧
    (∀ key, s.Leads off data.length key .write → ∃ u : State, exec i s = .next u ∧ Stores s u key data.length (leN data) ∧ u.teams = s.teams)) ∧
  (∀ (s : State) (off n : Nat) (i : Instr), (i = .pcieRead off n ∧ s.pkg.posted = []) ∨ i = .appCoreAccess (.load off n) → Plain s →
    ((∀ k, k < n → s.behind (off + k) = none) → ∃ u : State, exec i s = .next u ∧ u.mem = s.mem ∧ u.pkg.hostData = List.replicate n 255) ∧
    (∀ key, s.Leads off n key .read → ∃ u : State, exec i s = .next u ∧ u.mem = s.mem ∧
      u.pkg.hostData = (List.range n).map fun k => Memory.read s.mem (key + k))) ∧
  (∀ (s : State) (op : AmoOp) (off n key : Nat) (data : BitVec 64) (aq rl : Bool), Plain s → s.tags = [] → s.Leads off n key .read →
    s.Leads off n key .write → s.Leads off 1 key .atomic →
    ∃ u : State, exec (.appCoreAccess (.amo op off n data aq rl)) s = .next u ∧
      u.pkg.hostData = ((List.range n).map fun k => Memory.read s.mem (key + k)) ∧
      Stores s u key n (amoValue op (8 * n) (Memory.readN s.mem key n) data.toNat)) ∧
  ∀ (s : State) (pr pw sr sw : Bool),
    (¬ (pr = true ∧ sr = true ∧ sw = true) → exec (.appCoreAccess (.fence pr pw sr sw)) s = .next s) ∧
    (pr = true → sr = true → sw = true → ∃ u : State, exec (.appCoreAccess (.fence pr pw sr sw)) s = .next u ∧ u.pkg.hostHeard = [] ∧
      ∀ c ∈ s.pkg.hostHeard, (∀ x ∈ (u.core c).l1, x.dirty = 0) ∧ ∀ t ∈ u.tags, t.core ≠ c)

/-- IN_SERVICE_CHANGE_START on the first tower where a change can begin or go on: a core that is named is given no more work; a core that holds none is retired, the lowest spare takes its place, and a record of type 16 is written; a slice passes every hash value of its to one other slice. SLICE_REMAP_DRAINED of the first tower whose remap has drained ends the change with a record of type 14. Else nothing changes. (R12, R138, R408, R455, R476) -/
def Sys2Proof.Machine.ChangesInServiceComeToTheirEnd : Prop :=
  (∀ s : State, ((∀ n, n < 4 → s.changeMoves n = false) → exec .inServiceChangeStart s = .next s) ∧
    ((∀ n, n < 4 → s.sliceDrained n = false) → exec .sliceRemapDrained s = .next s)) ∧
  (∀ (s : State) (n : Nat), n < 4 → s.changeMoves n = true → (∀ k, k < n → s.changeMoves k = false) →
    (∀ core how rest, (s.tower n).change = none → (s.tower n).waitingChanges = (0, core, how) :: rest → s.pkg.isActive (dieOf core) (core % 96) = true →
      ∃ u : State, exec .inServiceChangeStart s = .next u ∧ u.mem = s.mem ∧ (u.core core).retiring = true ∧ (u.tower n).change = some (0, core, how) ∧
        (u.tower n).waitingChanges = rest ∧ ∀ q ∈ u.qteams, q.level ≠ .core core) ∧
    (∀ x reason rest, (s.tower n).change = none → (s.tower n).waitingChanges = (1, x, reason) :: rest → x ∈ (s.tower n).slices →
      2 ≤ (s.tower n).slices.length → s.watches = [] → s.exacts = [] → s.pkg.lostLines = [] → ∃ (u : State) (y : _), exec .inServiceChangeStart s = .next u ∧ u.mem = s.mem ∧ y ≠ x ∧
        y ∈ (s.tower n).slices ∧ (u.tower n).retire = some ⟨x, y, reason, (List.range 64).filter fun h => (s.tower n).sliceOf h == x⟩ ∧
        ∀ h, h < 64 → (u.tower n).sliceOf h = if (s.tower n).sliceOf h = x then y else (s.tower n).sliceOf h) ∧
    (∀ core how, (s.tower n).change = some (0, core, how) → (∀ t ∈ s.teams, t.core ≠ core) → core < 2304 → s.pkg.coreMap.length = 24 →
      ∃ u : State, exec .inServiceChangeStart s = .next u ∧ (u.tower n).change = none ∧
        (u.pkg.isActive (dieOf core) (core % 96) = true → (s.pkg.coreMap.getD (dieOf core) CoreMapEntry.boot).spare.getLsbD (core % 96) = true) ∧
        u.pkg.signature = mapSignature u.pkg.coreMap ∧
        (∀ k, k < 96 → (s.pkg.coreMap.getD (dieOf core) CoreMapEntry.boot).lowestSpare = some k → u.pkg.isActive (dieOf core) k = true) ∧
        (Plain s → s.ringRoom → Records s u 16 0))) ∧
  ∀ (s : State) (n : Nat), n < 4 → s.sliceDrained n = true → (∀ k, k < n → s.sliceDrained k = false) →
    ∃ u : State, exec .sliceRemapDrained s = .next u ∧ (u.tower n).retire = none ∧ (u.tower n).change = none ∧
      (∀ h, (u.tower n).sliceOf h = (s.tower n).sliceOf h) ∧ (Plain s → s.ringRoom → Records s u 14 0)

/-- The host reaches memory and mailboxes, and changes in service come to their end: the claims TheHostReachesMemory, ChangesInServiceComeToTheirEnd together. (R12, R138, R397, R399, R402, R408, R455, R476) -/
def Obligations.TheHostAndChangesInServiceAct : Prop :=
  TheHostReachesMemory ∧ ChangesInServiceComeToTheirEnd

/-! ## Errors (R460 to R470) -/

namespace Sys2Proof.Machine

/-- A flit of a link is sent again: its resends are counted, with a record of type 11 where a burst begins; no fibre and no team is
touched. -/
def Resent (s u : State) (kind n : Nat) : Prop :=
  u.teams = s.teams ∧ u.fibres = s.fibres ∧ u.launches = s.launches ∧
    ((s.retries kind n ≠ 0 ∧ u.retries kind n = s.retries kind n + 1 ∧ u.mem = s.mem) ∨
      (u.retries kind n = 1 ∧ (Plain s → s.ringRoom → Records s u 11 0)))

end Sys2Proof.Machine

/-- A failed flit of a loop, a bridge or a port that is up is sent again and changes nothing else. LOOP_FAIL after 16 resends fails the loop; BRIDGE_RETRAIN after 8 replays brings the link back with all or half of its lanes, or makes the package fatal; PORT_RETRAIN brings a port back with the lanes given, PORT_DEAD takes it down with none; each with a record of type 11. Before that each changes nothing, but that PORT_RETRAIN of a port that is up puts its recalibration in the line of its tower (log 87). (R467, R468, R469, R470) -/
def Sys2Proof.Machine.LinksResendAndRetrain : Prop :=
  (∀ (s : State) (t n : Nat),
    (t < 4 → n < 16 → ∃ u : State, exec (.loopFlitError t n) s = .next u ∧ Resent s u 0 (16 * t + n)) ∧
    (¬ (t < 4 ∧ n < 16) → exec (.loopFlitError t n) s = .next s) ∧
    (t < 4 → n < 16 → 16 ≤ s.retries 0 (16 * t + n) → ∃ u : State, exec (.loopFail t n) s = .next u ∧
      (u.tower t).loopsFailed = (s.tower t).loopsFailed ||| BitVec.ofNat 16 (2 ^ n) ∧ u.retries 0 (16 * t + n) = 0 ∧ u.teams = s.teams ∧
      (Plain s → s.ringRoom → Records s u 11 1)) ∧
    (s.retries 0 (16 * t + n) < 16 → exec (.loopFail t n) s = .next s)) ∧
  (∀ (s : State) (t v : Nat),
    (t < 4 → v < 4 → t ≠ v → ∃ u : State, exec (.bridgeCrcError t v) s = .next u ∧ Resent s u 1 (bridgeNo t v)) ∧
    (¬ (t < 4 ∧ v < 4 ∧ t ≠ v) → exec (.bridgeCrcError t v) s = .next s) ∧
    (∀ lanes, t < 4 → v < 4 → t ≠ v → 8 ≤ s.retries 1 (bridgeNo t v) →
      (lanes = 1 ∨ lanes = 2 → ∃ u : State, exec (.bridgeRetrain t v lanes) s = .next u ∧ u.bridgeLanes t v = lanes ∧
        u.retries 1 (bridgeNo t v) = 0 ∧ u.teams = s.teams ∧ (Plain s → s.ringRoom → Records s u 11 1)) ∧
      (lanes = 0 → s.pkg.fatal = none → ∃ u : State, exec (.bridgeRetrain t v lanes) s = .next u ∧ u.pkg.fatal = some 0xFFFF0007 ∧
        (∀ l ∈ u.launches, l.outcome ≠ none) ∧ (Plain s → s.ringRoom → Records s u 11 3))) ∧
    (∀ lanes, s.retries 1 (bridgeNo t v) < 8 → exec (.bridgeRetrain t v lanes) s = .next s)) ∧
  ∀ (s : State) (p : Nat),
    (p < 18 → (s.port p).getLsbD 0 = true → ∃ u : State, exec (.zunosCrcError p) s = .next u ∧ Resent s u 2 p) ∧
    (18 ≤ p ∨ (s.port p).getLsbD 0 = false → exec (.zunosCrcError p) s = .next s) ∧
    (∀ lanes, p < 18 → s.pkg.ports.length = 18 → lanes = 8 ∨ lanes = 4 ∨ lanes = 2 → 8 ≤ s.retries 2 p →
      ∃ u : State, exec (.portRetrain p lanes) s = .next u ∧ (u.port p).getLsbD 0 = true ∧ (u.port p).toNat / 2 % 16 = lanes ∧
        (u.port p).toNat / 2 ^ 5 = (s.port p).toNat / 2 ^ 5 ∧ u.retries 2 p = 0 ∧ u.teams = s.teams ∧ (Plain s → s.ringRoom → Records s u 11 1)) ∧
    (p < 18 → s.pkg.ports.length = 18 → 8 ≤ s.retries 2 p → ∃ u : State, exec (.portDead p) s = .next u ∧ (u.port p).toNat % 2 ^ 5 = 0 ∧
      (u.port p).toNat / 2 ^ 5 = (s.port p).toNat / 2 ^ 5 ∧ u.retries 2 p = 0 ∧ u.teams = s.teams ∧ (Plain s → s.ringRoom → Records s u 11 1)) ∧
    (s.retries 2 p < 8 → exec (.portDead p) s = .next s ∧ ∀ lanes,
      (18 ≤ p ∨ ¬ (lanes = 8 ∨ lanes = 4 ∨ lanes = 2) ∨ (s.port p).getLsbD 0 = false ∨ s.recalibrates p = true → exec (.portRetrain p lanes) s = .next s) ∧
      (p < 18 → lanes = 8 ∨ lanes = 4 ∨ lanes = 2 → (s.port p).getLsbD 0 = true → s.recalibrates p = false →
        ∃ u : State, exec (.portRetrain p lanes) s = .next u ∧ u.mem = s.mem ∧ u.teams = s.teams ∧
          (u.tower (portTower p)).waitingChanges = (s.tower (portTower p)).waitingChanges ++ [(3, p, lanes)]))

/-- CORRECTED_ERROR touches no fibre and no team, and is counted: within 2^24 cycles of the last record of its unit only that, else a record of type 9 is written. PATROL_SCRUB that corrects or finds an uncorrectable unit does as those do, without a consumer. UNCORRECTABLE_ERROR of a line of a slice enters the lost-line table, of a unit of a team marks it bad; a consumer that is Current takes dataerr; a record of type 10 is written. A code of no structure changes nothing. (R460, R461, R463, R464, R465) -/
def Sys2Proof.Machine.StorageErrorsAreCountedOrTrap : Prop :=
  (∀ (s : State) (x : StorageUnit),
    (∃ u : State, exec (.correctedError x) s = .next u ∧ u.teams = s.teams ∧ u.fibres = s.fibres ∧ u.launches = s.launches ∧ u.layers = s.layers ∧
      (s.errCount (errKey 3 x.code x.place) ≠ 0 → s.now < s.errCount (errKey 3 x.code x.place) - 1 + 2 ^ 24 → u.mem = s.mem) ∧
      (s.errCount (errKey 3 x.code x.place) = 0 → Plain s → s.ringRoom → Records s u 9 0)) ∧
    (x.code < 7 ∨ 12 < x.code → ∀ found, exec (.patrolScrub x found) s = .next s) ∧
    (7 ≤ x.code → x.code ≤ 12 → exec (.patrolScrub x 0) s = .next s ∧ exec (.patrolScrub x 1) s = exec (.correctedError x) s ∧
      exec (.patrolScrub x 2) s = exec (.uncorrectableError x 0 0) s) ∧
    (x.code < 1 ∨ 12 < x.code → ∀ f lanes, exec (.uncorrectableError x f lanes) s = .next s)) ∧
  (∀ (s : State) (x : StorageUnit) (f : Nat) (lanes : Mask), x.code = 9 ∨ x.code = 11 ∨ x.code = 12 → Plain s → s.ringRoom → s.fibre? f = none →
    ∃ u : State, exec (.uncorrectableError x f lanes) s = .next u ∧ u.teams = s.teams ∧ u.fibres = s.fibres ∧ Records s u 10 1 ∧
      u.pkg.lostLines = [(x.place % 2 ^ 16, lineOf x.unit)] ∧ u.pkg.fatal = s.pkg.fatal) ∧
  ∀ (s : State) (x : StorageUnit) (f : Fibre) (t : Team) (lanes : Mask), 1 ≤ x.code → x.code ≤ 5 → s.team? x.place = some t →
    s.fibre? f.id = some f → f.team = t.id → f.run = .current → f.pending = none →
    ∃ (u : State) (w : Team) (g : Fibre), exec (.uncorrectableError x f.id lanes) s = .next u ∧ u.team? t.id = some w ∧ (x.code, x.unit) ∈ w.bad ∧
      u.fibre? f.id = some g ∧ g.run = .trapping ∧ g.uregs = f.uregs ∧ g.ips = f.ips ∧
      g.pending = some ⟨0x15, 0, BitVec.ofNat 16 x.code, lanes, f.ip ((lanesOf lanes).headD 0), 0⟩ ∧
      (Plain s → s.ringRoom → Records s u 10 1)

/-- Link errors are resent, storage errors are corrected, counted or trap: the claims LinksResendAndRetrain, StorageErrorsAreCountedOrTrap together. (R460, R461, R463, R464, R465, R467, R468, R469, R470) -/
def Obligations.ErrorsAreResentCountedOrTrap : Prop :=
  LinksResendAndRetrain ∧ StorageErrorsAreCountedOrTrap

/-- For every instruction or device event and every state, exec answers a next state, or the issue stage holds no fibre and exec stops with noFibre: no instruction is refused, none stops for an operand, a mode or a value. That the machine stops at all in the second case is the choice of the model (log 1); step never issues without a fibre. (R41, R410, R412) -/
def Obligations.NothingStopsButAnIssueWithoutAFibre : Prop :=
  ∀ (i : Instr) (s : State), (∃ t : State, exec i s = .next t) ∨ (s.view = none ∧ exec i s = .fault .noFibre)

/-! ## Where the plain control forms complete -/

/-- nop, the entry nop, yield, and nap of 0 answer a next state in which the lanes of their path stand at IP + 1 and every register and all of memory is as before; nap of n from 1 on answers one in which the fibre is Parked until cycle t + n, its active lanes stand at their IP, the other lanes of the path at IP + 1, and every register and all of memory is as before; and NAP_EXPIRY from that cycle on answers one in which the fibre waits no longer and is Ready or current. (R42, R190, R201, R202) -/
def Obligations.PlainControlFormsComplete : Prop :=
  (∀ (i : Instr) (e : Enc) (s : State) (v : View),
    (i = .nop e ∨ i = .nopEntry e ∨ i = .yield e ∨ (i = .nap e ∧ (v.at i e).src 2 .u32 0 = 0)) → Runs i e s v →
    ∃ t : State, exec i s = .next t ∧ Stands t v v.mask (fun _ => v.ip + 1) ∧ Holds s t v [] ∧ t.mem = s.mem) ∧
  (∀ (e : Enc) (s : State) (v : View), Runs (.nap e) e s v → (v.at (.nap e) e).src 2 .u32 0 ≠ 0 →
    ∃ t : State, exec (.nap e) s = .next t ∧ (t.fibre? v.f.id).map Fibre.run = some .parked ∧
      (t.fibre? v.f.id).map Fibre.waits = some (.nap (s.now + (v.at (.nap e) e).src 2 .u32 0) (v.active e)) ∧
      Stands t v (v.mask &&& ~~~ v.active e) (fun _ => v.ip + 1) ∧ Holds s t v [] ∧ t.mem = s.mem) ∧
  ∀ (s : State) (fid u : Nat) (lanes : Mask) (f : Fibre), s.fibre? fid = some f → f.waits = .nap u lanes → u ≤ s.now →
    ∃ (t : State) (g : Fibre), exec (.napExpiry fid) s = .next t ∧ t.fibre? fid = some g ∧
      (g.run = .ready ∨ g.run = .current) ∧ g.waits = .none

/-- calli whose targets are at hand, in the code range, entry nops and within the budgets answers a next state with its active lanes at their targets and the other lanes of the path at IP + 1; waddr with a timeout from 1 on, a sound readable word whose lines translate and nothing that holds it back answers one with its fibre Parked until cycle t + timeout, and WADDR_TIMEOUT from that cycle on one in which the fibre waits no longer and is Ready or current; a firmware call of a service up to 255 that nothing holds back answers one with the call added and its lanes at IP + 1; halt of a launch with no outcome answers one in which the launch has status 2 and the code of the source. (R199, R200, R265, R328, R329) -/
def Obligations.CalliWaddrFirmwareCallsAndHaltComplete : Prop :=
  (∀ (e : Enc) (s : State) (v : View) (k : Launch),
    let x := v.at (.calli e) e
    let r := x.fetchTargets (x.tgt false) (lanesOf (v.active e)) s
    Runs (.calli e) e s v → (∀ p ∈ r.1, p.2 = Fetch.ok) → r.2.launch? v.l.id = some k →
    (∀ lane, (v.active e).getLsbD lane = true → v.InCode (x.tgt false lane) ∧
      ∃ nv ns, entryCounts k (x.tgt false lane) = some (nv, ns) ∧ nv ≤ v.size ∧ ns ≤ v.f.allot) →
    ∃ t : State, exec (.calli e) s = .next t ∧ Transfers t v e (x.tgt false)) ∧
  (∀ (e : Enc) (s : State) (v : View),
    let x := v.at (.waddr e) e
    let r := s.translateLines v.t.core v.l.ctx .read (gatherLines (elemPieces (x.oneWord (x.buf 2)) noData noData))
    Runs (.waddr e) e s v → s.accessHold v.f = .free → (∀ y ∈ s.sideLog, y.fid ≠ v.f.id) → x.u32 1 ≠ 0 →
    (x.buf 2).bad false = none → (x.buf 2).prd = true →
    (∀ el ∈ x.oneWord (x.buf 2), el.inb = true ∧ el.reach < 2 ^ 57 ∧ el.va % 4 = 0) → (∀ p ∈ r.1, ∃ pl, p.2 = .ok pl) →
    ∃ t : State, exec (.waddr e) s = .next t ∧ (t.fibre? v.f.id).map Fibre.run = some .parked ∧
      (t.fibre? v.f.id).map Fibre.waits = some (.waddr (s.now + x.u32 1) (v.active e))) ∧
  (∀ (s : State) (fid u : Nat) (lanes : Mask) (f : Fibre), s.fibre? fid = some f → f.waits = .waddr u lanes → u ≤ s.now →
    ∃ (t : State) (g : Fibre), exec (.waddrTimeout fid) s = .next t ∧ t.fibre? fid = some g ∧
      (g.run = .ready ∨ g.run = .current) ∧ g.waits = .none) ∧
  (∀ (i : Instr) (e : Enc) (s : State) (v : View),
    i = .fwcallEcho e ∨ i = .fwcallFeatureVector e ∨ i = .fwcallLog e ∨ i = .fwcallNoService e → Runs i e s v →
    s.arriveHold v.f = .free → (v.at i e).src 2 .u32 0 ≤ 255 →
    ∃ (t : State) (c : FwCall), exec i s = .next t ∧ t.calls = s.calls ++ [c] ∧ c.fid = v.f.id ∧
      c.service = (v.at i e).src 2 .u32 0 ∧ Stands t v v.mask fun _ => v.ip + 1) ∧
  ∀ (e : Enc) (s : State) (v : View), Runs (.halt e) e s v → v.l.outcome = none →
    ∃ t : State, exec (.halt e) s = .next t ∧ Stands t v v.mask (fun _ => v.ip + 1) ∧
      (t.launch? v.l.id).map Launch.outcome = some (some (2, BitVec.ofNat 32 ((v.at (.halt e) e).src 2 .u32 0)))
end

