-- ==== Sys2Proof/Laws/State.lean ====
section
/-! SUPPORT. What each update of one table of the state leaves alone: one lemma for each field, true by computation. -/

namespace Sys2Proof.Machine

/-! ## modFibre -/

@[simp] theorem State.modFibre_now (s : State) (f : Nat) (g : Fibre → Fibre) : (s.modFibre f g).now = s.now := rfl
@[simp] theorem State.modFibre_tick (s : State) (f : Nat) (g : Fibre → Fibre) : (s.modFibre f g).tick = s.tick := rfl
@[simp] theorem State.modFibre_nextId (s : State) (f : Nat) (g : Fibre → Fibre) : (s.modFibre f g).nextId = s.nextId := rfl
@[simp] theorem State.modFibre_cursor (s : State) (f : Nat) (g : Fibre → Fibre) : (s.modFibre f g).cursor = s.cursor := rfl
@[simp] theorem State.modFibre_turn (s : State) (f : Nat) (g : Fibre → Fibre) : (s.modFibre f g).turn = s.turn := rfl
@[simp] theorem State.modFibre_inbox (s : State) (f : Nat) (g : Fibre → Fibre) : (s.modFibre f g).inbox = s.inbox := rfl
@[simp] theorem State.modFibre_mem (s : State) (f : Nat) (g : Fibre → Fibre) : (s.modFibre f g).mem = s.mem := rfl
@[simp] theorem State.modFibre_teams (s : State) (f : Nat) (g : Fibre → Fibre) : (s.modFibre f g).teams = s.teams := rfl
@[simp] theorem State.modFibre_cores (s : State) (f : Nat) (g : Fibre → Fibre) : (s.modFibre f g).cores = s.cores := rfl
@[simp] theorem State.modFibre_layers (s : State) (f : Nat) (g : Fibre → Fibre) : (s.modFibre f g).layers = s.layers := rfl
@[simp] theorem State.modFibre_towers (s : State) (f : Nat) (g : Fibre → Fibre) : (s.modFibre f g).towers = s.towers := rfl
@[simp] theorem State.modFibre_results (s : State) (f : Nat) (g : Fibre → Fibre) : (s.modFibre f g).results = s.results := rfl
@[simp] theorem State.modFibre_ops (s : State) (f : Nat) (g : Fibre → Fibre) : (s.modFibre f g).ops = s.ops := rfl
@[simp] theorem State.modFibre_reqs (s : State) (f : Nat) (g : Fibre → Fibre) : (s.modFibre f g).reqs = s.reqs := rfl
@[simp] theorem State.modFibre_sideLog (s : State) (f : Nat) (g : Fibre → Fibre) : (s.modFibre f g).sideLog = s.sideLog := rfl
@[simp] theorem State.modFibre_exacts (s : State) (f : Nat) (g : Fibre → Fibre) : (s.modFibre f g).exacts = s.exacts := rfl
@[simp] theorem State.modFibre_watches (s : State) (f : Nat) (g : Fibre → Fibre) : (s.modFibre f g).watches = s.watches := rfl
@[simp] theorem State.modFibre_tags (s : State) (f : Nat) (g : Fibre → Fibre) : (s.modFibre f g).tags = s.tags := rfl
@[simp] theorem State.modFibre_keys (s : State) (f : Nat) (g : Fibre → Fibre) : (s.modFibre f g).keys = s.keys := rfl
@[simp] theorem State.modFibre_launches (s : State) (f : Nat) (g : Fibre → Fibre) : (s.modFibre f g).launches = s.launches := rfl
@[simp] theorem State.modFibre_qteams (s : State) (f : Nat) (g : Fibre → Fibre) : (s.modFibre f g).qteams = s.qteams := rfl
@[simp] theorem State.modFibre_saved (s : State) (f : Nat) (g : Fibre → Fibre) : (s.modFibre f g).saved = s.saved := rfl
@[simp] theorem State.modFibre_queues (s : State) (f : Nat) (g : Fibre → Fibre) : (s.modFibre f g).queues = s.queues := rfl
@[simp] theorem State.modFibre_tasks (s : State) (f : Nat) (g : Fibre → Fibre) : (s.modFibre f g).tasks = s.tasks := rfl
@[simp] theorem State.modFibre_tiles (s : State) (f : Nat) (g : Fibre → Fibre) : (s.modFibre f g).tiles = s.tiles := rfl
@[simp] theorem State.modFibre_members (s : State) (f : Nat) (g : Fibre → Fibre) : (s.modFibre f g).members = s.members := rfl
@[simp] theorem State.modFibre_packets (s : State) (f : Nat) (g : Fibre → Fibre) : (s.modFibre f g).packets = s.packets := rfl
@[simp] theorem State.modFibre_records (s : State) (f : Nat) (g : Fibre → Fibre) : (s.modFibre f g).records = s.records := rfl
@[simp] theorem State.modFibre_msgs (s : State) (f : Nat) (g : Fibre → Fibre) : (s.modFibre f g).msgs = s.msgs := rfl
@[simp] theorem State.modFibre_calls (s : State) (f : Nat) (g : Fibre → Fibre) : (s.modFibre f g).calls = s.calls := rfl
@[simp] theorem State.modFibre_pkg (s : State) (f : Nat) (g : Fibre → Fibre) : (s.modFibre f g).pkg = s.pkg := rfl

/-! ## modTeam -/

@[simp] theorem State.modTeam_now (s : State) (t : Nat) (g : Team → Team) : (s.modTeam t g).now = s.now := rfl
@[simp] theorem State.modTeam_tick (s : State) (t : Nat) (g : Team → Team) : (s.modTeam t g).tick = s.tick := rfl
@[simp] theorem State.modTeam_nextId (s : State) (t : Nat) (g : Team → Team) : (s.modTeam t g).nextId = s.nextId := rfl
@[simp] theorem State.modTeam_cursor (s : State) (t : Nat) (g : Team → Team) : (s.modTeam t g).cursor = s.cursor := rfl
@[simp] theorem State.modTeam_turn (s : State) (t : Nat) (g : Team → Team) : (s.modTeam t g).turn = s.turn := rfl
@[simp] theorem State.modTeam_inbox (s : State) (t : Nat) (g : Team → Team) : (s.modTeam t g).inbox = s.inbox := rfl
@[simp] theorem State.modTeam_mem (s : State) (t : Nat) (g : Team → Team) : (s.modTeam t g).mem = s.mem := rfl
@[simp] theorem State.modTeam_fibres (s : State) (t : Nat) (g : Team → Team) : (s.modTeam t g).fibres = s.fibres := rfl
@[simp] theorem State.modTeam_cores (s : State) (t : Nat) (g : Team → Team) : (s.modTeam t g).cores = s.cores := rfl
@[simp] theorem State.modTeam_layers (s : State) (t : Nat) (g : Team → Team) : (s.modTeam t g).layers = s.layers := rfl
@[simp] theorem State.modTeam_towers (s : State) (t : Nat) (g : Team → Team) : (s.modTeam t g).towers = s.towers := rfl
@[simp] theorem State.modTeam_results (s : State) (t : Nat) (g : Team → Team) : (s.modTeam t g).results = s.results := rfl
@[simp] theorem State.modTeam_ops (s : State) (t : Nat) (g : Team → Team) : (s.modTeam t g).ops = s.ops := rfl
@[simp] theorem State.modTeam_reqs (s : State) (t : Nat) (g : Team → Team) : (s.modTeam t g).reqs = s.reqs := rfl
@[simp] theorem State.modTeam_sideLog (s : State) (t : Nat) (g : Team → Team) : (s.modTeam t g).sideLog = s.sideLog := rfl
@[simp] theorem State.modTeam_exacts (s : State) (t : Nat) (g : Team → Team) : (s.modTeam t g).exacts = s.exacts := rfl
@[simp] theorem State.modTeam_watches (s : State) (t : Nat) (g : Team → Team) : (s.modTeam t g).watches = s.watches := rfl
@[simp] theorem State.modTeam_tags (s : State) (t : Nat) (g : Team → Team) : (s.modTeam t g).tags = s.tags := rfl
@[simp] theorem State.modTeam_keys (s : State) (t : Nat) (g : Team → Team) : (s.modTeam t g).keys = s.keys := rfl
@[simp] theorem State.modTeam_launches (s : State) (t : Nat) (g : Team → Team) : (s.modTeam t g).launches = s.launches := rfl
@[simp] theorem State.modTeam_qteams (s : State) (t : Nat) (g : Team → Team) : (s.modTeam t g).qteams = s.qteams := rfl
@[simp] theorem State.modTeam_saved (s : State) (t : Nat) (g : Team → Team) : (s.modTeam t g).saved = s.saved := rfl
@[simp] theorem State.modTeam_queues (s : State) (t : Nat) (g : Team → Team) : (s.modTeam t g).queues = s.queues := rfl
@[simp] theorem State.modTeam_tasks (s : State) (t : Nat) (g : Team → Team) : (s.modTeam t g).tasks = s.tasks := rfl
@[simp] theorem State.modTeam_tiles (s : State) (t : Nat) (g : Team → Team) : (s.modTeam t g).tiles = s.tiles := rfl
@[simp] theorem State.modTeam_members (s : State) (t : Nat) (g : Team → Team) : (s.modTeam t g).members = s.members := rfl
@[simp] theorem State.modTeam_packets (s : State) (t : Nat) (g : Team → Team) : (s.modTeam t g).packets = s.packets := rfl
@[simp] theorem State.modTeam_records (s : State) (t : Nat) (g : Team → Team) : (s.modTeam t g).records = s.records := rfl
@[simp] theorem State.modTeam_msgs (s : State) (t : Nat) (g : Team → Team) : (s.modTeam t g).msgs = s.msgs := rfl
@[simp] theorem State.modTeam_calls (s : State) (t : Nat) (g : Team → Team) : (s.modTeam t g).calls = s.calls := rfl
@[simp] theorem State.modTeam_pkg (s : State) (t : Nat) (g : Team → Team) : (s.modTeam t g).pkg = s.pkg := rfl

/-! ## modLaunch -/

@[simp] theorem State.modLaunch_now (s : State) (l : Nat) (g : Launch → Launch) : (s.modLaunch l g).now = s.now := rfl
@[simp] theorem State.modLaunch_tick (s : State) (l : Nat) (g : Launch → Launch) : (s.modLaunch l g).tick = s.tick := rfl
@[simp] theorem State.modLaunch_nextId (s : State) (l : Nat) (g : Launch → Launch) : (s.modLaunch l g).nextId = s.nextId := rfl
@[simp] theorem State.modLaunch_cursor (s : State) (l : Nat) (g : Launch → Launch) : (s.modLaunch l g).cursor = s.cursor := rfl
@[simp] theorem State.modLaunch_turn (s : State) (l : Nat) (g : Launch → Launch) : (s.modLaunch l g).turn = s.turn := rfl
@[simp] theorem State.modLaunch_inbox (s : State) (l : Nat) (g : Launch → Launch) : (s.modLaunch l g).inbox = s.inbox := rfl
@[simp] theorem State.modLaunch_mem (s : State) (l : Nat) (g : Launch → Launch) : (s.modLaunch l g).mem = s.mem := rfl
@[simp] theorem State.modLaunch_fibres (s : State) (l : Nat) (g : Launch → Launch) : (s.modLaunch l g).fibres = s.fibres := rfl
@[simp] theorem State.modLaunch_teams (s : State) (l : Nat) (g : Launch → Launch) : (s.modLaunch l g).teams = s.teams := rfl
@[simp] theorem State.modLaunch_cores (s : State) (l : Nat) (g : Launch → Launch) : (s.modLaunch l g).cores = s.cores := rfl
@[simp] theorem State.modLaunch_layers (s : State) (l : Nat) (g : Launch → Launch) : (s.modLaunch l g).layers = s.layers := rfl
@[simp] theorem State.modLaunch_towers (s : State) (l : Nat) (g : Launch → Launch) : (s.modLaunch l g).towers = s.towers := rfl
@[simp] theorem State.modLaunch_results (s : State) (l : Nat) (g : Launch → Launch) : (s.modLaunch l g).results = s.results := rfl
@[simp] theorem State.modLaunch_ops (s : State) (l : Nat) (g : Launch → Launch) : (s.modLaunch l g).ops = s.ops := rfl
@[simp] theorem State.modLaunch_reqs (s : State) (l : Nat) (g : Launch → Launch) : (s.modLaunch l g).reqs = s.reqs := rfl
@[simp] theorem State.modLaunch_sideLog (s : State) (l : Nat) (g : Launch → Launch) : (s.modLaunch l g).sideLog = s.sideLog := rfl
@[simp] theorem State.modLaunch_exacts (s : State) (l : Nat) (g : Launch → Launch) : (s.modLaunch l g).exacts = s.exacts := rfl
@[simp] theorem State.modLaunch_watches (s : State) (l : Nat) (g : Launch → Launch) : (s.modLaunch l g).watches = s.watches := rfl
@[simp] theorem State.modLaunch_tags (s : State) (l : Nat) (g : Launch → Launch) : (s.modLaunch l g).tags = s.tags := rfl
@[simp] theorem State.modLaunch_keys (s : State) (l : Nat) (g : Launch → Launch) : (s.modLaunch l g).keys = s.keys := rfl
@[simp] theorem State.modLaunch_qteams (s : State) (l : Nat) (g : Launch → Launch) : (s.modLaunch l g).qteams = s.qteams := rfl
@[simp] theorem State.modLaunch_saved (s : State) (l : Nat) (g : Launch → Launch) : (s.modLaunch l g).saved = s.saved := rfl
@[simp] theorem State.modLaunch_queues (s : State) (l : Nat) (g : Launch → Launch) : (s.modLaunch l g).queues = s.queues := rfl
@[simp] theorem State.modLaunch_tasks (s : State) (l : Nat) (g : Launch → Launch) : (s.modLaunch l g).tasks = s.tasks := rfl
@[simp] theorem State.modLaunch_tiles (s : State) (l : Nat) (g : Launch → Launch) : (s.modLaunch l g).tiles = s.tiles := rfl
@[simp] theorem State.modLaunch_members (s : State) (l : Nat) (g : Launch → Launch) : (s.modLaunch l g).members = s.members := rfl
@[simp] theorem State.modLaunch_packets (s : State) (l : Nat) (g : Launch → Launch) : (s.modLaunch l g).packets = s.packets := rfl
@[simp] theorem State.modLaunch_records (s : State) (l : Nat) (g : Launch → Launch) : (s.modLaunch l g).records = s.records := rfl
@[simp] theorem State.modLaunch_msgs (s : State) (l : Nat) (g : Launch → Launch) : (s.modLaunch l g).msgs = s.msgs := rfl
@[simp] theorem State.modLaunch_calls (s : State) (l : Nat) (g : Launch → Launch) : (s.modLaunch l g).calls = s.calls := rfl
@[simp] theorem State.modLaunch_pkg (s : State) (l : Nat) (g : Launch → Launch) : (s.modLaunch l g).pkg = s.pkg := rfl

/-! ## modCore -/

@[simp] theorem State.modCore_now (s : State) (c : Nat) (g : Core → Core) : (s.modCore c g).now = s.now := rfl
@[simp] theorem State.modCore_tick (s : State) (c : Nat) (g : Core → Core) : (s.modCore c g).tick = s.tick := rfl
@[simp] theorem State.modCore_nextId (s : State) (c : Nat) (g : Core → Core) : (s.modCore c g).nextId = s.nextId := rfl
@[simp] theorem State.modCore_cursor (s : State) (c : Nat) (g : Core → Core) : (s.modCore c g).cursor = s.cursor := rfl
@[simp] theorem State.modCore_turn (s : State) (c : Nat) (g : Core → Core) : (s.modCore c g).turn = s.turn := rfl
@[simp] theorem State.modCore_inbox (s : State) (c : Nat) (g : Core → Core) : (s.modCore c g).inbox = s.inbox := rfl
@[simp] theorem State.modCore_mem (s : State) (c : Nat) (g : Core → Core) : (s.modCore c g).mem = s.mem := rfl
@[simp] theorem State.modCore_fibres (s : State) (c : Nat) (g : Core → Core) : (s.modCore c g).fibres = s.fibres := rfl
@[simp] theorem State.modCore_teams (s : State) (c : Nat) (g : Core → Core) : (s.modCore c g).teams = s.teams := rfl
@[simp] theorem State.modCore_layers (s : State) (c : Nat) (g : Core → Core) : (s.modCore c g).layers = s.layers := rfl
@[simp] theorem State.modCore_towers (s : State) (c : Nat) (g : Core → Core) : (s.modCore c g).towers = s.towers := rfl
@[simp] theorem State.modCore_results (s : State) (c : Nat) (g : Core → Core) : (s.modCore c g).results = s.results := rfl
@[simp] theorem State.modCore_ops (s : State) (c : Nat) (g : Core → Core) : (s.modCore c g).ops = s.ops := rfl
@[simp] theorem State.modCore_reqs (s : State) (c : Nat) (g : Core → Core) : (s.modCore c g).reqs = s.reqs := rfl
@[simp] theorem State.modCore_sideLog (s : State) (c : Nat) (g : Core → Core) : (s.modCore c g).sideLog = s.sideLog := rfl
@[simp] theorem State.modCore_exacts (s : State) (c : Nat) (g : Core → Core) : (s.modCore c g).exacts = s.exacts := rfl
@[simp] theorem State.modCore_watches (s : State) (c : Nat) (g : Core → Core) : (s.modCore c g).watches = s.watches := rfl
@[simp] theorem State.modCore_tags (s : State) (c : Nat) (g : Core → Core) : (s.modCore c g).tags = s.tags := rfl
@[simp] theorem State.modCore_keys (s : State) (c : Nat) (g : Core → Core) : (s.modCore c g).keys = s.keys := rfl
@[simp] theorem State.modCore_launches (s : State) (c : Nat) (g : Core → Core) : (s.modCore c g).launches = s.launches := rfl
@[simp] theorem State.modCore_qteams (s : State) (c : Nat) (g : Core → Core) : (s.modCore c g).qteams = s.qteams := rfl
@[simp] theorem State.modCore_saved (s : State) (c : Nat) (g : Core → Core) : (s.modCore c g).saved = s.saved := rfl
@[simp] theorem State.modCore_queues (s : State) (c : Nat) (g : Core → Core) : (s.modCore c g).queues = s.queues := rfl
@[simp] theorem State.modCore_tasks (s : State) (c : Nat) (g : Core → Core) : (s.modCore c g).tasks = s.tasks := rfl
@[simp] theorem State.modCore_tiles (s : State) (c : Nat) (g : Core → Core) : (s.modCore c g).tiles = s.tiles := rfl
@[simp] theorem State.modCore_members (s : State) (c : Nat) (g : Core → Core) : (s.modCore c g).members = s.members := rfl
@[simp] theorem State.modCore_packets (s : State) (c : Nat) (g : Core → Core) : (s.modCore c g).packets = s.packets := rfl
@[simp] theorem State.modCore_records (s : State) (c : Nat) (g : Core → Core) : (s.modCore c g).records = s.records := rfl
@[simp] theorem State.modCore_msgs (s : State) (c : Nat) (g : Core → Core) : (s.modCore c g).msgs = s.msgs := rfl
@[simp] theorem State.modCore_calls (s : State) (c : Nat) (g : Core → Core) : (s.modCore c g).calls = s.calls := rfl
@[simp] theorem State.modCore_pkg (s : State) (c : Nat) (g : Core → Core) : (s.modCore c g).pkg = s.pkg := rfl

/-! ## modTower -/

@[simp] theorem State.modTower_now (s : State) (t : Nat) (g : Tower → Tower) : (s.modTower t g).now = s.now := rfl
@[simp] theorem State.modTower_tick (s : State) (t : Nat) (g : Tower → Tower) : (s.modTower t g).tick = s.tick := rfl
@[simp] theorem State.modTower_nextId (s : State) (t : Nat) (g : Tower → Tower) : (s.modTower t g).nextId = s.nextId := rfl
@[simp] theorem State.modTower_cursor (s : State) (t : Nat) (g : Tower → Tower) : (s.modTower t g).cursor = s.cursor := rfl
@[simp] theorem State.modTower_turn (s : State) (t : Nat) (g : Tower → Tower) : (s.modTower t g).turn = s.turn := rfl
@[simp] theorem State.modTower_inbox (s : State) (t : Nat) (g : Tower → Tower) : (s.modTower t g).inbox = s.inbox := rfl
@[simp] theorem State.modTower_mem (s : State) (t : Nat) (g : Tower → Tower) : (s.modTower t g).mem = s.mem := rfl
@[simp] theorem State.modTower_fibres (s : State) (t : Nat) (g : Tower → Tower) : (s.modTower t g).fibres = s.fibres := rfl
@[simp] theorem State.modTower_teams (s : State) (t : Nat) (g : Tower → Tower) : (s.modTower t g).teams = s.teams := rfl
@[simp] theorem State.modTower_cores (s : State) (t : Nat) (g : Tower → Tower) : (s.modTower t g).cores = s.cores := rfl
@[simp] theorem State.modTower_layers (s : State) (t : Nat) (g : Tower → Tower) : (s.modTower t g).layers = s.layers := rfl
@[simp] theorem State.modTower_results (s : State) (t : Nat) (g : Tower → Tower) : (s.modTower t g).results = s.results := rfl
@[simp] theorem State.modTower_ops (s : State) (t : Nat) (g : Tower → Tower) : (s.modTower t g).ops = s.ops := rfl
@[simp] theorem State.modTower_reqs (s : State) (t : Nat) (g : Tower → Tower) : (s.modTower t g).reqs = s.reqs := rfl
@[simp] theorem State.modTower_sideLog (s : State) (t : Nat) (g : Tower → Tower) : (s.modTower t g).sideLog = s.sideLog := rfl
@[simp] theorem State.modTower_exacts (s : State) (t : Nat) (g : Tower → Tower) : (s.modTower t g).exacts = s.exacts := rfl
@[simp] theorem State.modTower_watches (s : State) (t : Nat) (g : Tower → Tower) : (s.modTower t g).watches = s.watches := rfl
@[simp] theorem State.modTower_tags (s : State) (t : Nat) (g : Tower → Tower) : (s.modTower t g).tags = s.tags := rfl
@[simp] theorem State.modTower_keys (s : State) (t : Nat) (g : Tower → Tower) : (s.modTower t g).keys = s.keys := rfl
@[simp] theorem State.modTower_launches (s : State) (t : Nat) (g : Tower → Tower) : (s.modTower t g).launches = s.launches := rfl
@[simp] theorem State.modTower_qteams (s : State) (t : Nat) (g : Tower → Tower) : (s.modTower t g).qteams = s.qteams := rfl
@[simp] theorem State.modTower_saved (s : State) (t : Nat) (g : Tower → Tower) : (s.modTower t g).saved = s.saved := rfl
@[simp] theorem State.modTower_queues (s : State) (t : Nat) (g : Tower → Tower) : (s.modTower t g).queues = s.queues := rfl
@[simp] theorem State.modTower_tasks (s : State) (t : Nat) (g : Tower → Tower) : (s.modTower t g).tasks = s.tasks := rfl
@[simp] theorem State.modTower_tiles (s : State) (t : Nat) (g : Tower → Tower) : (s.modTower t g).tiles = s.tiles := rfl
@[simp] theorem State.modTower_members (s : State) (t : Nat) (g : Tower → Tower) : (s.modTower t g).members = s.members := rfl
@[simp] theorem State.modTower_packets (s : State) (t : Nat) (g : Tower → Tower) : (s.modTower t g).packets = s.packets := rfl
@[simp] theorem State.modTower_records (s : State) (t : Nat) (g : Tower → Tower) : (s.modTower t g).records = s.records := rfl
@[simp] theorem State.modTower_msgs (s : State) (t : Nat) (g : Tower → Tower) : (s.modTower t g).msgs = s.msgs := rfl
@[simp] theorem State.modTower_calls (s : State) (t : Nat) (g : Tower → Tower) : (s.modTower t g).calls = s.calls := rfl
@[simp] theorem State.modTower_pkg (s : State) (t : Nat) (g : Tower → Tower) : (s.modTower t g).pkg = s.pkg := rfl

/-! ## modLayer -/

@[simp] theorem State.modLayer_now (s : State) (d : Nat) (g : Layer → Layer) : (s.modLayer d g).now = s.now := rfl
@[simp] theorem State.modLayer_tick (s : State) (d : Nat) (g : Layer → Layer) : (s.modLayer d g).tick = s.tick := rfl
@[simp] theorem State.modLayer_nextId (s : State) (d : Nat) (g : Layer → Layer) : (s.modLayer d g).nextId = s.nextId := rfl
@[simp] theorem State.modLayer_cursor (s : State) (d : Nat) (g : Layer → Layer) : (s.modLayer d g).cursor = s.cursor := rfl
@[simp] theorem State.modLayer_turn (s : State) (d : Nat) (g : Layer → Layer) : (s.modLayer d g).turn = s.turn := rfl
@[simp] theorem State.modLayer_inbox (s : State) (d : Nat) (g : Layer → Layer) : (s.modLayer d g).inbox = s.inbox := rfl
@[simp] theorem State.modLayer_mem (s : State) (d : Nat) (g : Layer → Layer) : (s.modLayer d g).mem = s.mem := rfl
@[simp] theorem State.modLayer_fibres (s : State) (d : Nat) (g : Layer → Layer) : (s.modLayer d g).fibres = s.fibres := rfl
@[simp] theorem State.modLayer_teams (s : State) (d : Nat) (g : Layer → Layer) : (s.modLayer d g).teams = s.teams := rfl
@[simp] theorem State.modLayer_cores (s : State) (d : Nat) (g : Layer → Layer) : (s.modLayer d g).cores = s.cores := rfl
@[simp] theorem State.modLayer_towers (s : State) (d : Nat) (g : Layer → Layer) : (s.modLayer d g).towers = s.towers := rfl
@[simp] theorem State.modLayer_results (s : State) (d : Nat) (g : Layer → Layer) : (s.modLayer d g).results = s.results := rfl
@[simp] theorem State.modLayer_ops (s : State) (d : Nat) (g : Layer → Layer) : (s.modLayer d g).ops = s.ops := rfl
@[simp] theorem State.modLayer_reqs (s : State) (d : Nat) (g : Layer → Layer) : (s.modLayer d g).reqs = s.reqs := rfl
@[simp] theorem State.modLayer_sideLog (s : State) (d : Nat) (g : Layer → Layer) : (s.modLayer d g).sideLog = s.sideLog := rfl
@[simp] theorem State.modLayer_exacts (s : State) (d : Nat) (g : Layer → Layer) : (s.modLayer d g).exacts = s.exacts := rfl
@[simp] theorem State.modLayer_watches (s : State) (d : Nat) (g : Layer → Layer) : (s.modLayer d g).watches = s.watches := rfl
@[simp] theorem State.modLayer_tags (s : State) (d : Nat) (g : Layer → Layer) : (s.modLayer d g).tags = s.tags := rfl
@[simp] theorem State.modLayer_keys (s : State) (d : Nat) (g : Layer → Layer) : (s.modLayer d g).keys = s.keys := rfl
@[simp] theorem State.modLayer_launches (s : State) (d : Nat) (g : Layer → Layer) : (s.modLayer d g).launches = s.launches := rfl
@[simp] theorem State.modLayer_qteams (s : State) (d : Nat) (g : Layer → Layer) : (s.modLayer d g).qteams = s.qteams := rfl
@[simp] theorem State.modLayer_saved (s : State) (d : Nat) (g : Layer → Layer) : (s.modLayer d g).saved = s.saved := rfl
@[simp] theorem State.modLayer_queues (s : State) (d : Nat) (g : Layer → Layer) : (s.modLayer d g).queues = s.queues := rfl
@[simp] theorem State.modLayer_tasks (s : State) (d : Nat) (g : Layer → Layer) : (s.modLayer d g).tasks = s.tasks := rfl
@[simp] theorem State.modLayer_tiles (s : State) (d : Nat) (g : Layer → Layer) : (s.modLayer d g).tiles = s.tiles := rfl
@[simp] theorem State.modLayer_members (s : State) (d : Nat) (g : Layer → Layer) : (s.modLayer d g).members = s.members := rfl
@[simp] theorem State.modLayer_packets (s : State) (d : Nat) (g : Layer → Layer) : (s.modLayer d g).packets = s.packets := rfl
@[simp] theorem State.modLayer_records (s : State) (d : Nat) (g : Layer → Layer) : (s.modLayer d g).records = s.records := rfl
@[simp] theorem State.modLayer_msgs (s : State) (d : Nat) (g : Layer → Layer) : (s.modLayer d g).msgs = s.msgs := rfl
@[simp] theorem State.modLayer_calls (s : State) (d : Nat) (g : Layer → Layer) : (s.modLayer d g).calls = s.calls := rfl
@[simp] theorem State.modLayer_pkg (s : State) (d : Nat) (g : Layer → Layer) : (s.modLayer d g).pkg = s.pkg := rfl

/-! ## modQueue -/

@[simp] theorem State.modQueue_now (s : State) (q : Nat) (g : UQueue → UQueue) : (s.modQueue q g).now = s.now := rfl
@[simp] theorem State.modQueue_tick (s : State) (q : Nat) (g : UQueue → UQueue) : (s.modQueue q g).tick = s.tick := rfl
@[simp] theorem State.modQueue_nextId (s : State) (q : Nat) (g : UQueue → UQueue) : (s.modQueue q g).nextId = s.nextId := rfl
@[simp] theorem State.modQueue_cursor (s : State) (q : Nat) (g : UQueue → UQueue) : (s.modQueue q g).cursor = s.cursor := rfl
@[simp] theorem State.modQueue_turn (s : State) (q : Nat) (g : UQueue → UQueue) : (s.modQueue q g).turn = s.turn := rfl
@[simp] theorem State.modQueue_inbox (s : State) (q : Nat) (g : UQueue → UQueue) : (s.modQueue q g).inbox = s.inbox := rfl
@[simp] theorem State.modQueue_mem (s : State) (q : Nat) (g : UQueue → UQueue) : (s.modQueue q g).mem = s.mem := rfl
@[simp] theorem State.modQueue_fibres (s : State) (q : Nat) (g : UQueue → UQueue) : (s.modQueue q g).fibres = s.fibres := rfl
@[simp] theorem State.modQueue_teams (s : State) (q : Nat) (g : UQueue → UQueue) : (s.modQueue q g).teams = s.teams := rfl
@[simp] theorem State.modQueue_cores (s : State) (q : Nat) (g : UQueue → UQueue) : (s.modQueue q g).cores = s.cores := rfl
@[simp] theorem State.modQueue_layers (s : State) (q : Nat) (g : UQueue → UQueue) : (s.modQueue q g).layers = s.layers := rfl
@[simp] theorem State.modQueue_towers (s : State) (q : Nat) (g : UQueue → UQueue) : (s.modQueue q g).towers = s.towers := rfl
@[simp] theorem State.modQueue_results (s : State) (q : Nat) (g : UQueue → UQueue) : (s.modQueue q g).results = s.results := rfl
@[simp] theorem State.modQueue_ops (s : State) (q : Nat) (g : UQueue → UQueue) : (s.modQueue q g).ops = s.ops := rfl
@[simp] theorem State.modQueue_reqs (s : State) (q : Nat) (g : UQueue → UQueue) : (s.modQueue q g).reqs = s.reqs := rfl
@[simp] theorem State.modQueue_sideLog (s : State) (q : Nat) (g : UQueue → UQueue) : (s.modQueue q g).sideLog = s.sideLog := rfl
@[simp] theorem State.modQueue_exacts (s : State) (q : Nat) (g : UQueue → UQueue) : (s.modQueue q g).exacts = s.exacts := rfl
@[simp] theorem State.modQueue_watches (s : State) (q : Nat) (g : UQueue → UQueue) : (s.modQueue q g).watches = s.watches := rfl
@[simp] theorem State.modQueue_tags (s : State) (q : Nat) (g : UQueue → UQueue) : (s.modQueue q g).tags = s.tags := rfl
@[simp] theorem State.modQueue_keys (s : State) (q : Nat) (g : UQueue → UQueue) : (s.modQueue q g).keys = s.keys := rfl
@[simp] theorem State.modQueue_launches (s : State) (q : Nat) (g : UQueue → UQueue) : (s.modQueue q g).launches = s.launches := rfl
@[simp] theorem State.modQueue_qteams (s : State) (q : Nat) (g : UQueue → UQueue) : (s.modQueue q g).qteams = s.qteams := rfl
@[simp] theorem State.modQueue_saved (s : State) (q : Nat) (g : UQueue → UQueue) : (s.modQueue q g).saved = s.saved := rfl
@[simp] theorem State.modQueue_tasks (s : State) (q : Nat) (g : UQueue → UQueue) : (s.modQueue q g).tasks = s.tasks := rfl
@[simp] theorem State.modQueue_tiles (s : State) (q : Nat) (g : UQueue → UQueue) : (s.modQueue q g).tiles = s.tiles := rfl
@[simp] theorem State.modQueue_members (s : State) (q : Nat) (g : UQueue → UQueue) : (s.modQueue q g).members = s.members := rfl
@[simp] theorem State.modQueue_packets (s : State) (q : Nat) (g : UQueue → UQueue) : (s.modQueue q g).packets = s.packets := rfl
@[simp] theorem State.modQueue_records (s : State) (q : Nat) (g : UQueue → UQueue) : (s.modQueue q g).records = s.records := rfl
@[simp] theorem State.modQueue_msgs (s : State) (q : Nat) (g : UQueue → UQueue) : (s.modQueue q g).msgs = s.msgs := rfl
@[simp] theorem State.modQueue_calls (s : State) (q : Nat) (g : UQueue → UQueue) : (s.modQueue q g).calls = s.calls := rfl
@[simp] theorem State.modQueue_pkg (s : State) (q : Nat) (g : UQueue → UQueue) : (s.modQueue q g).pkg = s.pkg := rfl

/-! ## modPkg -/

@[simp] theorem State.modPkg_now (s : State) (g : Package → Package) : (s.modPkg g).now = s.now := rfl
@[simp] theorem State.modPkg_tick (s : State) (g : Package → Package) : (s.modPkg g).tick = s.tick := rfl
@[simp] theorem State.modPkg_nextId (s : State) (g : Package → Package) : (s.modPkg g).nextId = s.nextId := rfl
@[simp] theorem State.modPkg_cursor (s : State) (g : Package → Package) : (s.modPkg g).cursor = s.cursor := rfl
@[simp] theorem State.modPkg_turn (s : State) (g : Package → Package) : (s.modPkg g).turn = s.turn := rfl
@[simp] theorem State.modPkg_inbox (s : State) (g : Package → Package) : (s.modPkg g).inbox = s.inbox := rfl
@[simp] theorem State.modPkg_mem (s : State) (g : Package → Package) : (s.modPkg g).mem = s.mem := rfl
@[simp] theorem State.modPkg_fibres (s : State) (g : Package → Package) : (s.modPkg g).fibres = s.fibres := rfl
@[simp] theorem State.modPkg_teams (s : State) (g : Package → Package) : (s.modPkg g).teams = s.teams := rfl
@[simp] theorem State.modPkg_cores (s : State) (g : Package → Package) : (s.modPkg g).cores = s.cores := rfl
@[simp] theorem State.modPkg_layers (s : State) (g : Package → Package) : (s.modPkg g).layers = s.layers := rfl
@[simp] theorem State.modPkg_towers (s : State) (g : Package → Package) : (s.modPkg g).towers = s.towers := rfl
@[simp] theorem State.modPkg_results (s : State) (g : Package → Package) : (s.modPkg g).results = s.results := rfl
@[simp] theorem State.modPkg_ops (s : State) (g : Package → Package) : (s.modPkg g).ops = s.ops := rfl
@[simp] theorem State.modPkg_reqs (s : State) (g : Package → Package) : (s.modPkg g).reqs = s.reqs := rfl
@[simp] theorem State.modPkg_sideLog (s : State) (g : Package → Package) : (s.modPkg g).sideLog = s.sideLog := rfl
@[simp] theorem State.modPkg_exacts (s : State) (g : Package → Package) : (s.modPkg g).exacts = s.exacts := rfl
@[simp] theorem State.modPkg_watches (s : State) (g : Package → Package) : (s.modPkg g).watches = s.watches := rfl
@[simp] theorem State.modPkg_tags (s : State) (g : Package → Package) : (s.modPkg g).tags = s.tags := rfl
@[simp] theorem State.modPkg_keys (s : State) (g : Package → Package) : (s.modPkg g).keys = s.keys := rfl
@[simp] theorem State.modPkg_launches (s : State) (g : Package → Package) : (s.modPkg g).launches = s.launches := rfl
@[simp] theorem State.modPkg_qteams (s : State) (g : Package → Package) : (s.modPkg g).qteams = s.qteams := rfl
@[simp] theorem State.modPkg_saved (s : State) (g : Package → Package) : (s.modPkg g).saved = s.saved := rfl
@[simp] theorem State.modPkg_queues (s : State) (g : Package → Package) : (s.modPkg g).queues = s.queues := rfl
@[simp] theorem State.modPkg_tasks (s : State) (g : Package → Package) : (s.modPkg g).tasks = s.tasks := rfl
@[simp] theorem State.modPkg_tiles (s : State) (g : Package → Package) : (s.modPkg g).tiles = s.tiles := rfl
@[simp] theorem State.modPkg_members (s : State) (g : Package → Package) : (s.modPkg g).members = s.members := rfl
@[simp] theorem State.modPkg_packets (s : State) (g : Package → Package) : (s.modPkg g).packets = s.packets := rfl
@[simp] theorem State.modPkg_records (s : State) (g : Package → Package) : (s.modPkg g).records = s.records := rfl
@[simp] theorem State.modPkg_msgs (s : State) (g : Package → Package) : (s.modPkg g).msgs = s.msgs := rfl
@[simp] theorem State.modPkg_calls (s : State) (g : Package → Package) : (s.modPkg g).calls = s.calls := rfl

/-! ## The table that an update changes -/

@[simp] theorem State.modPkg_pkg (s : State) (g : Package → Package) : (s.modPkg g).pkg = g s.pkg := rfl

@[simp] theorem State.modFibre_fibres (s : State) (f : Nat) (g : Fibre → Fibre) :
    (s.modFibre f g).fibres = replaceBy (fun x => x.id == f) g s.fibres := rfl

@[simp] theorem State.modTeam_teams (s : State) (t : Nat) (g : Team → Team) :
    (s.modTeam t g).teams = replaceBy (fun x => x.id == t) g s.teams := rfl

@[simp] theorem State.modLaunch_launches (s : State) (l : Nat) (g : Launch → Launch) :
    (s.modLaunch l g).launches = replaceBy (fun x => x.id == l) g s.launches := rfl

/-- The record that is found after a replacement that keeps the test: the one found before, replaced. -/
theorem find_replaceBy {α : Type} (p : α → Bool) (g : α → α) (hp : ∀ x, p x = true → p (g x) = true) (xs : List α) :
    (replaceBy p g xs).find? p = (xs.find? p).map g := by
  induction xs with
  | nil => rfl
  | cons x xs ih =>
    simp only [replaceBy]
    by_cases h : p x = true
    · rw [if_pos h, List.find?_cons_of_pos (hp x h), List.find?_cons_of_pos h]; rfl
    · rw [if_neg h, List.find?_cons_of_neg h, List.find?_cons_of_neg h, ih]

/-- Any other record is found as before. -/
theorem find_replaceBy_ne {α : Type} (p q : α → Bool) (g : α → α) (h1 : ∀ x, p x = true → q x = false)
    (h2 : ∀ x, p x = true → q (g x) = false) (xs : List α) : (replaceBy p g xs).find? q = xs.find? q := by
  induction xs with
  | nil => rfl
  | cons x xs ih =>
    simp only [replaceBy]
    by_cases h : p x = true
    · rw [if_pos h, List.find?_cons_of_neg (by simp [h2 x h]), List.find?_cons_of_neg (by simp [h1 x h]), ih]
    · rw [if_neg h]
      by_cases hq : q x = true
      · rw [List.find?_cons_of_pos hq, List.find?_cons_of_pos hq]
      · rw [List.find?_cons_of_neg hq, List.find?_cons_of_neg hq, ih]

/-- A fibre after a change that keeps its name. -/
theorem State.fibre?_modFibre (s : State) (f : Nat) (g : Fibre → Fibre) (hg : ∀ x, (g x).id = x.id) :
    (s.modFibre f g).fibre? f = (s.fibre? f).map g :=
  find_replaceBy _ _ (fun x h => by simpa [hg x] using h) _

/-- A team after a change that keeps its name. -/
theorem State.team?_modTeam (s : State) (t : Nat) (g : Team → Team) (hg : ∀ x, (g x).id = x.id) :
    (s.modTeam t g).team? t = (s.team? t).map g :=
  find_replaceBy _ _ (fun x h => by simpa [hg x] using h) _

/-- A launch after a change that keeps its name. -/
theorem State.launch?_modLaunch (s : State) (l : Nat) (g : Launch → Launch) (hg : ∀ x, (g x).id = x.id) :
    (s.modLaunch l g).launch? l = (s.launch? l).map g :=
  find_replaceBy _ _ (fun x h => by simpa [hg x] using h) _

/-- Another fibre is not touched. -/
theorem State.fibre?_modFibre_ne (s : State) (f h : Nat) (g : Fibre → Fibre) (hg : ∀ x, (g x).id = x.id) (hn : h ≠ f) :
    (s.modFibre f g).fibre? h = s.fibre? h :=
  find_replaceBy_ne _ _ _ (fun x hx => by simp at hx ⊢; omega) (fun x hx => by simp [hg x] at hx ⊢; omega) _

/-- Another team is not touched. -/
theorem State.team?_modTeam_ne (s : State) (t u : Nat) (g : Team → Team) (hg : ∀ x, (g x).id = x.id) (hn : u ≠ t) :
    (s.modTeam t g).team? u = s.team? u :=
  find_replaceBy_ne _ _ _ (fun x hx => by simp at hx ⊢; omega) (fun x hx => by simp [hg x] at hx ⊢; omega) _

@[simp] theorem State.team?_modFibre (s : State) (f t : Nat) (g : Fibre → Fibre) : (s.modFibre f g).team? t = s.team? t := rfl
@[simp] theorem State.fibre?_modTeam (s : State) (f t : Nat) (g : Team → Team) : (s.modTeam t g).fibre? f = s.fibre? f := rfl
@[simp] theorem State.launch?_modFibre (s : State) (f l : Nat) (g : Fibre → Fibre) : (s.modFibre f g).launch? l = s.launch? l := rfl
@[simp] theorem State.launch?_modTeam (s : State) (t l : Nat) (g : Team → Team) : (s.modTeam t g).launch? l = s.launch? l := rfl
@[simp] theorem State.fibre?_modCore (s : State) (f c : Nat) (g : Core → Core) : (s.modCore c g).fibre? f = s.fibre? f := rfl
@[simp] theorem State.team?_modCore (s : State) (t c : Nat) (g : Core → Core) : (s.modCore c g).team? t = s.team? t := rfl
@[simp] theorem State.launch?_modCore (s : State) (l c : Nat) (g : Core → Core) : (s.modCore c g).launch? l = s.launch? l := rfl
@[simp] theorem State.fibre?_modPkg (s : State) (f : Nat) (g : Package → Package) : (s.modPkg g).fibre? f = s.fibre? f := rfl
@[simp] theorem State.team?_modPkg (s : State) (t : Nat) (g : Package → Package) : (s.modPkg g).team? t = s.team? t := rfl

end Sys2Proof.Machine
end

