-- ==== Sys2Proof/Laws/Store.lean ====
section
/-! SUPPORT. What the sparse maps and memory do: a read after a write, writes that leave other keys alone, and the
canonical form kept. -/

namespace Sys2Proof.Machine

theorem SMap.get_insert {α : Type} (d : α) (m : SMap α) (k : Nat) (v : α) (j : Nat) :
    SMap.get d (SMap.insert m k v) j = if j = k then v else SMap.get d m j := by
  induction m with
  | nil => simp only [SMap.insert, SMap.get, eq_comm (a := k)]
  | cons e rest ih =>
    obtain ⟨i, w⟩ := e
    simp only [SMap.insert]
    by_cases h1 : k < i
    · simp only [h1, if_true, SMap.get, eq_comm (a := k)]
    · by_cases h2 : k = i
      · subst h2
        by_cases h3 : j = k <;> simp [h3, SMap.get, eq_comm (a := k)]
      · simp only [h1, h2, if_false, SMap.get, ih]
        by_cases h3 : i = j
        · have : ¬ j = k := by omega
          simp [h3, this]
        · simp [h3]

theorem SMap.wfFrom_mono {α : Type} [DecidableEq α] (d : α) (m : SMap α) (lo hi : Nat) (h : lo ≤ hi)
    (hm : SMap.wfFrom d hi m = true) : SMap.wfFrom d lo m = true := by
  cases m with
  | nil => rfl
  | cons e rest =>
    obtain ⟨k, v⟩ := e
    simp only [SMap.wfFrom, Bool.and_eq_true, decide_eq_true_eq] at hm ⊢
    exact ⟨⟨by omega, hm.1.2⟩, hm.2⟩

theorem SMap.get_below {α : Type} [DecidableEq α] (d : α) (m : SMap α) (lo j : Nat) (h : j < lo)
    (hm : SMap.wfFrom d lo m = true) : SMap.get d m j = d := by
  induction m generalizing lo with
  | nil => rfl
  | cons e rest ih =>
    obtain ⟨k, v⟩ := e
    simp only [SMap.wfFrom, Bool.and_eq_true, decide_eq_true_eq] at hm
    have hk : ¬ k = j := by omega
    simp only [SMap.get, hk, if_false]
    exact ih (k + 1) (by omega) hm.2

theorem SMap.get_erase {α : Type} (d : α) (m : SMap α) (k j : Nat) :
    SMap.get d (SMap.erase m k) j = if j = k then d else SMap.get d m j := by
  induction m with
  | nil => simp [SMap.erase, SMap.get]
  | cons e rest ih =>
    obtain ⟨i, v⟩ := e
    simp only [SMap.erase]
    by_cases hik : i = k
    · rw [if_pos hik, ih]
      by_cases hj : j = k
      · simp [hj]
      · have : ¬ i = j := by omega
        simp [hj, SMap.get, this]
    · simp only [hik, if_false, SMap.get, ih]
      split <;> split <;> simp_all

/-- A read after a write: the value at its key, every other key as before. -/
theorem SMap.get_set {α : Type} [DecidableEq α] (d : α) (m : SMap α) (k : Nat) (v : α) (j : Nat) :
    SMap.get d (SMap.set d m k v) j = if j = k then v else SMap.get d m j := by
  unfold SMap.set
  by_cases hv : v = d
  · rw [if_pos hv, SMap.get_erase, hv]
  · rw [if_neg hv, SMap.get_insert]

theorem SMap.wfFrom_insert {α : Type} [DecidableEq α] (d : α) (m : SMap α) (lo k : Nat) (v : α) (hlo : lo ≤ k)
    (hv : v ≠ d) (hm : SMap.wfFrom d lo m = true) : SMap.wfFrom d lo (SMap.insert m k v) = true := by
  induction m generalizing lo with
  | nil => simp [SMap.insert, SMap.wfFrom, hlo, hv]
  | cons e rest ih =>
    obtain ⟨i, w⟩ := e
    simp only [SMap.wfFrom, Bool.and_eq_true, decide_eq_true_eq] at hm
    simp only [SMap.insert]
    split
    · simp only [SMap.wfFrom, Bool.and_eq_true, decide_eq_true_eq]
      exact ⟨⟨hlo, hv⟩, ⟨by omega, hm.1.2⟩, hm.2⟩
    · split
      · rename_i h1 h2
        simp only [SMap.wfFrom, Bool.and_eq_true, decide_eq_true_eq]
        exact ⟨⟨hlo, hv⟩, by rw [h2]; exact hm.2⟩
      · simp only [SMap.wfFrom, Bool.and_eq_true, decide_eq_true_eq]
        exact ⟨hm.1, ih (i + 1) (by omega) hm.2⟩

theorem SMap.wfFrom_erase {α : Type} [DecidableEq α] (d : α) (m : SMap α) (lo k : Nat)
    (hm : SMap.wfFrom d lo m = true) : SMap.wfFrom d lo (SMap.erase m k) = true := by
  induction m generalizing lo with
  | nil => rfl
  | cons e rest ih =>
    obtain ⟨i, v⟩ := e
    simp only [SMap.wfFrom, Bool.and_eq_true, decide_eq_true_eq] at hm
    simp only [SMap.erase]
    split
    · exact SMap.wfFrom_mono d _ lo (i + 1) (by omega) (ih (i + 1) hm.2)
    · simp only [SMap.wfFrom, Bool.and_eq_true, decide_eq_true_eq]
      exact ⟨hm.1, ih (i + 1) hm.2⟩

/-- A write keeps the canonical form. -/
theorem SMap.wf_set {α : Type} [DecidableEq α] (d : α) (m : SMap α) (k : Nat) (v : α)
    (hm : SMap.wf d m = true) : SMap.wf d (SMap.set d m k v) = true := by
  unfold SMap.set
  split
  · exact SMap.wfFrom_erase d m 0 k hm
  · rename_i h; exact SMap.wfFrom_insert d m 0 k v (Nat.zero_le _) h hm

theorem SMap.wf_setLanes {α : Type} [DecidableEq α] (d : α) (m : SMap α) (base : Nat) (ls : List Nat)
    (f : Nat → α) (hm : SMap.wf d m = true) : SMap.wf d (SMap.setLanes d m base ls f) = true := by
  induction ls with
  | nil => exact hm
  | cons L Ls ih => exact SMap.wf_set d _ _ _ ih

/-- A write of lanes: each listed lane has its value, every other key is as before. -/
theorem SMap.get_setLanes {α : Type} [DecidableEq α] (d : α) (m : SMap α) (base : Nat) (ls : List Nat)
    (f : Nat → α) (j : Nat) :
    SMap.get d (SMap.setLanes d m base ls f) j =
      if base ≤ j ∧ j - base ∈ ls then f (j - base) else SMap.get d m j := by
  induction ls with
  | nil => simp [SMap.setLanes]
  | cons L Ls ih =>
    rw [SMap.setLanes, SMap.get_set, ih]
    by_cases h : j = base + L
    · subst h; simp
    · rw [if_neg h]
      by_cases h2 : base ≤ j
      · have : j - base ≠ L := by omega
        simp [h2, this]
      · simp [h2]

theorem Memory.wf_write (m : List Host.Cell) (k : Nat) (b : Byte) (h : Memory.wf m = true) :
    Memory.wf (Memory.write m k b) = true := SMap.wf_set _ _ _ _ h

theorem Memory.wf_writeN (m : List Host.Cell) (k n v : Nat) (h : Memory.wf m = true) :
    Memory.wf (Memory.writeN m k n v) = true := by
  induction n generalizing m k v with
  | zero => exact h
  | succ n ih => exact ih _ _ _ (Memory.wf_write m k _ h)

theorem Memory.read_write (m : List Host.Cell) (k : Nat) (b : Byte) (j : Nat) :
    Memory.read (Memory.write m k b) j = if j = k then b else Memory.read m j := SMap.get_set _ _ _ _ _

theorem Memory.read_writeN_below (m : List Host.Cell) (k n v j : Nat) (hj : j < k) :
    Memory.read (Memory.writeN m k n v) j = Memory.read m j := by
  induction n generalizing m k v with
  | zero => rfl
  | succ n ih =>
    rw [Memory.writeN, ih _ _ _ (by omega), Memory.read_write,
      if_neg (by omega)]

theorem Memory.read_writeN_above (m : List Host.Cell) (k n v j : Nat)
    (hj : k + n ≤ j) : Memory.read (Memory.writeN m k n v) j = Memory.read m j := by
  induction n generalizing m k v with
  | zero => rfl
  | succ n ih =>
    rw [Memory.writeN, ih _ _ _ (by omega), Memory.read_write,
      if_neg (by omega)]

end Sys2Proof.Machine
end

