-- ==== Sys2Proof/Laws/Ops.lean ====
section
/-! SUPPORT. What the shared operations do, said once: the frame of an instruction, reads and stores at a home slice, traps. -/

namespace Sys2Proof.Machine

/-! ## The frame of an instruction -/

/-- An instruction with a fibre in the issue stage answers a next state. -/
theorem issue_view (i : Instr) (e : Enc) (st : Iss → Option (Nat × Nat)) (body : Iss → Act) (s : State) (v : View)
    (hv : s.view = some v) : issue i e st body s = .next ((v.issue i e).finish (issueOn i (v.issue i e) st body)) := by
  simp only [issue, hv]

/-- Every check passes and some lane is active: the body runs. -/
theorem issueOn_body (i : Instr) (x : Iss) (st : Iss → Option (Nat × Nat)) (body : Iss → Act) (h1 : i.fault x.v.limits = none)
    (h2 : st x = none) (h3 : x.badSource i = none) (h4 : x.act ≠ 0) : issueOn i x st body = body x := by
  simp only [issueOn, h1, h2, h3, if_neg h4]

/-- Every check passes and no lane is active: nothing but the lanes' IPs changes. -/
theorem issueOn_idle (i : Instr) (x : Iss) (st : Iss → Option (Nat × Nat)) (body : Iss → Act) (h1 : i.fault x.v.limits = none)
    (h2 : st x = none) (h3 : x.badSource i = none) (h4 : x.act = 0) : issueOn i x st body = .next x.v.s := by
  simp only [issueOn, h1, h2, h3, if_pos h4]

/-- A malformed word traps (R169). -/
theorem issueOn_fault (i : Instr) (x : Iss) (st : Iss → Option (Nat × Nat)) (body : Iss → Act) (c f d : Nat)
    (h : i.fault x.v.limits = some (c, f, d)) : issueOn i x st body = .trap c f d x.v.mask 0 := by
  simp only [issueOn, h]

/-- Without an uncorrectable unit in its team no instruction meets one. -/
theorem badSource_none (x : Iss) (i : Instr) (h : x.v.t.bad = []) : x.badSource i = none := by
  simp only [Iss.badSource, h, if_true]

/-! ## Memory at home (R111 to R115) -/

theorem State.materialise_wf (s : State) (k n : Nat) (h : Memory.wf s.mem = true) : Memory.wf (s.materialise k n).mem = true := by
  simp only [State.materialise]
  generalize s.exacts.filter _ = xs
  generalize hm : s.mem = m at h
  clear hm
  induction xs generalizing m with
  | nil => exact h
  | cons x xs ih => exact ih _ (Memory.wf_writeN _ _ _ _ h)

theorem State.closeExacts_wf (s : State) (k n : Nat) (h : Memory.wf s.mem = true) : Memory.wf (s.closeExacts k n).mem = true :=
  s.materialise_wf k n h

/-- A read at home answers the bytes after materialisation, and leaves nothing else changed. -/
theorem State.homeRead_eq (s : State) (k n : Nat) :
    s.homeRead k n = (Memory.readN (s.materialise k n).mem k n, s.materialise k n) := rfl

/-- With no accumulator open a read changes nothing. -/
theorem State.materialise_none (s : State) (k n : Nat) (h : s.exacts = []) : s.materialise k n = s := by
  cases s
  simp only at h
  subst h
  rfl

theorem State.leave_mem (s : State) (f : Nat) (r : Run) (w : Waits) : (s.leave f r w).mem = s.mem := by
  simp only [State.leave]
  split
  · rfl
  · split
    · rfl
    · simp only [State.passSlot]
      split
      · simp only [State.setCurrent]
        split <;> rfl
      · rfl

theorem State.setCurrent_mem (s : State) (c j : Nat) (f : Option Nat) : (s.setCurrent c j f).mem = s.mem := by
  simp only [State.setCurrent]
  split <;> rfl

theorem State.wake_mem (s : State) (f : Nat) : (s.wake f).mem = s.mem := by
  simp only [State.wake]
  split
  · rfl
  · split
    · rfl
    · split
      · rw [State.setCurrent_mem]; rfl
      · rfl

theorem State.wakePast_mem (s : State) (f : Nat) (lanes : Mask) : (s.wakePast f lanes).mem = s.mem := by
  simp only [State.wakePast, State.wake_mem, State.modFibre_mem]

theorem State.wakeWatch_mem (s : State) (w : Watch) : (s.wakeWatch w).mem = s.mem := by
  simp only [State.wakeWatch]
  split
  · rfl
  · split
    · rfl
    · split <;> simp only [State.wakePast_mem, State.wake_mem]

theorem State.wakeWhere_mem (s : State) (p : Watch → Bool) : (s.wakeWhere p).mem = s.mem := by
  have h : ∀ (ws : List Watch) (s : State), (ws.foldl State.wakeWatch s).mem = s.mem := by
    intro ws
    induction ws with
    | nil => intro s; rfl
    | cons w ws ih => intro s; rw [List.foldl_cons, ih, State.wakeWatch_mem]
  simp only [State.wakeWhere, h]

/-- What follows a write of a line, doorbells and wakes, leaves memory as it stands (R332, R265). -/
@[simp] theorem State.lineWritten_mem (before s : State) (line : Nat) : (before.lineWritten s line).mem = s.mem := by
  simp only [State.lineWritten, State.ring, State.wakeLine, State.wakeWhere_mem]

/-- A store at home writes its bytes and nothing else of memory but what it materialises. -/
theorem State.homeWrite_mem (s : State) (k n v : Nat) :
    (s.homeWrite k n v).mem = Memory.writeN (s.materialise k n).mem k n v := by
  simp only [State.homeWrite, State.lineWritten_mem, State.closeExacts]

theorem State.homeWrite_wf (s : State) (k n v : Nat) (h : Memory.wf s.mem = true) : Memory.wf (s.homeWrite k n v).mem = true := by
  rw [State.homeWrite_mem]
  exact Memory.wf_writeN _ _ _ _ (s.materialise_wf k n h)

theorem State.homeWriteBits_wf (s : State) (k bit nbits v : Nat) (h : Memory.wf s.mem = true) :
    Memory.wf (s.homeWriteBits k bit nbits v).mem = true := by
  simp only [State.homeWriteBits, State.lineWritten_mem]
  exact Memory.wf_writeN _ _ _ _ (s.closeExacts_wf _ _ h)

theorem State.roomForExact_wf (s : State) (k bank : Nat) (h : Memory.wf s.mem = true) :
    Memory.wf (s.roomForExact k bank).mem = true := by
  simp only [State.roomForExact, State.spill]
  repeat' split
  all_goals first
    | exact h
    | exact s.materialise_wf _ _ h

theorem State.homeXadd_wf (s : State) (k bank : Nat) (isFloat sat : Bool) (w : Nat) (h : Memory.wf s.mem = true) :
    Memory.wf (s.homeXadd k bank isFloat sat w).mem = true := by
  have h1 : Memory.wf (if s.exacts.any fun x => x.touches k 4 && (x.isFloat != isFloat) then s.closeExacts k 4 else s).mem = true := by
    split
    · exact s.closeExacts_wf _ _ h
    · exact h
  simp only [State.homeXadd, State.lineWritten_mem]
  generalize (if s.exacts.any fun x => x.touches k 4 && (x.isFloat != isFloat) then s.closeExacts k 4 else s) = u at h1 ⊢
  have h2 := u.roomForExact_wf k bank h1
  repeat' split
  all_goals first
    | exact State.materialise_wf _ _ _ h2
    | exact h2

end Sys2Proof.Machine
end

