-- ==== Sys2Proof/Tests/Slice0.lean ====
section
/-! SUPPORT. Tests: ill-formed terms that the checks of R169 refuse, words written out from the encodings of the spec, single steps
whose results the spec's examples and tables give, and witnesses for the hypotheses of the statements. -/

open Sys2Proof Sys2Proof.Machine

/-- Vector register q of the fibre, lane by lane. -/
def Sys2Proof.Machine.State.setV (s : State) (q : Nat) (f : Nat → Nat) : State :=
  s.modTeam 2 fun t => { t with pool := SMap.setLanes 0 t.pool (32 * q) (List.range 32) fun L => BitVec.ofNat 32 (f L) }

/-- Uniform register n of the fibre. -/
def Sys2Proof.Machine.State.setU (s : State) (n x : Nat) : State := s.modFibre 3 fun f => { f with uregs := SMap.set 0 f.uregs n (BitVec.ofNat 32 x) }

/-- Predicate n of the fibre, by its lanes. -/
def Sys2Proof.Machine.State.setP (s : State) (n x : Nat) : State := s.modFibre 3 fun f => { f with preds := SMap.set 0 f.preds n (BitVec.ofNat 32 x) }

namespace Sys2Proof.Tests

set_option Elab.async false

open Sys2Proof Sys2Proof.Machine

/-! ## Words, field by field (R168, R170) -/

/-- The word of an instruction from its fields at the places of R168. -/
def word (op mod d a b c e : Nat) : Nat :=
  op + mod * 2 ^ 10 + d * 2 ^ 32 + a * 2 ^ 54 + b * 2 ^ 76 + c * 2 ^ 98 + e * 2 ^ 120

/-- A word under guard p of GA (R168, R177). -/
def under (p w : Nat) : Nat := w + p * 2 ^ 16

def vec (n : Nat) : Nat := 8 * n + 1
def uni (n : Nat) : Nat := 8 * n + 2
def prd (n : Nat) : Nat := 8 * n + 3
def til (n : Nat) : Nat := 8 * n + 4
def acc (n : Nat) : Nat := 8 * n + 5
def spc (n : Nat) : Nat := 8 * n + 6
def imm (n : Nat) : Nat := 8 * n + 7

/-! ## Ill-formed terms: one for each check of R169 -/

/-- Check 1: no opcode 0x00C. -/
theorem test_unassigned_opcode_is_illegal : decodeTableWord 160 0x00C = some (.illegalInstruction 0x00C) := by decide +kernel

/-- Check 2: `add` has no variant 1. -/
theorem test_undefined_mod_is_ill_formed :
    (Instr.add (Enc.ofBits (BitVec.ofNat 160 (word 0x042 9 (vec 3) (vec 1) (vec 2) 0 0)))).wellFormed = false := by decide +kernel

/-- Check 3: `add` does not use E. -/
theorem test_unused_field_is_ill_formed :
    (Instr.add (Enc.ofBits (BitVec.ofNat 160 (word 0x042 1 (vec 3) (vec 1) (vec 2) 0 (vec 4))))).wellFormed = false := by decide +kernel

/-- Check 3: the reserved bits are zero. -/
theorem test_reserved_bits_are_ill_formed :
    (Instr.add (Enc.ofBits (BitVec.ofNat 160 (word 0x042 1 (vec 3) (vec 1) (vec 2) 0 0 + 2 ^ 158)))).wellFormed = false := by decide +kernel

/-- Check 4: a destination is no immediate (DETAIL 1), s128 does not exist (DETAIL 2), pattern 7 is reserved (DETAIL 3). -/
theorem test_operands_are_ill_formed :
    [word 0x042 1 (imm 3) (vec 1) (vec 2) 0 0, word 0x042 1 (uni 128) (uni 1) (uni 2) 0 0,
     word 0x042 1 (vec 3) (vec 1 + 7 * 2 ^ 11) (vec 2) 0 0].map
      (fun w => (Instr.add (Enc.ofBits (BitVec.ofNat 160 w))).fault Limits.most) =
    [some (2, 1, 1), some (2, 1, 2), some (2, 2, 3)] := by decide +kernel

/-- Check 5: `add` accepts no scope, no rounding and no hint (DETAIL 5, 6, 7). -/
theorem test_modifiers_are_ill_formed :
    [2 ^ 148, 2 ^ 151, 2 ^ 142].map
      (fun k => (Instr.add (Enc.ofBits (BitVec.ofNat 160 (word 0x042 1 (vec 3) (vec 1) (vec 2) 0 0 + k)))).fault Limits.most) =
    [some (2, 0, 5), some (2, 0, 6), some (2, 0, 7)] := by decide +kernel

theorem test_add_is_well_formed :
    (Instr.add (Enc.ofBits (BitVec.ofNat 160 (word 0x042 1 (vec 3) (vec 1) (vec 2) 0 0)))).wellFormed = true := by decide +kernel

/-! ## Words that the spec writes out -/

/-- The example of R177 and R182: `(p3 & !p7) sw fadd.f32 v4, v5.rot(1), s2`. -/
theorem test_decode_fadd : (match decodeTableWord 160 (fiveWords 0xA3830140 0x0A400021 0x00012012 0 0) with
    | some (.fadd e) => decide (e.ga = 3 ∧ e.gb = 0x47 ∧ e.gc = false ∧ e.sw = true ∧ e.d = ⟨.vec, 4, 0, 0, false, false⟩ ∧
        e.a = ⟨.vec, 5, 1, 1, false, false⟩ ∧ e.b = ⟨.uni, 2, 0, 0, false, false⟩)
    | _ => false) = true := by decide +kernel

/-- The example of R212: `cmp.lt.i32 p5, v3, 100`. -/
theorem test_decode_cmp : (match decodeTableWord 160 (fiveWords 0x00004064 0x0640002B 0x00327000 0 0) with
    | some (.cmp e) => decide (e.mod = 0x10 ∧ e.d = ⟨.pred, 5, 0, 0, false, false⟩ ∧ e.a = ⟨.vec, 3, 0, 0, false, false⟩ ∧ e.b.cls = .imm ∧ e.b.imm = 100)
    | _ => false) = true := by decide +kernel

/-- The example of R237: `cvt.sr.e4m3.f32 v6, v2`. -/
theorem test_decode_cvtSr : (match decodeTableWord 160 (fiveWords 0x00000DD1 0x04400031 0 0 0) with
    | some (.cvtSr e) => decide (e.mod = 3 ∧ e.d = ⟨.vec, 6, 0, 0, false, false⟩ ∧ e.a = ⟨.vec, 2, 0, 0, false, false⟩)
    | _ => false) = true := by decide +kernel

/-- The example of R249: `ld.acq.b32.die v4, s8, v1, 16`. -/
theorem test_decode_ld : (match decodeTableWord 160 (fiveWords 0x00009200 0x10800021 0x00009000 0x0000021C 0x00100000) with
    | some (.ld e) => decide (e.mod = 0x24 ∧ e.d = ⟨.vec, 4, 0, 0, false, false⟩ ∧ e.a = ⟨.uni, 8, 0, 0, false, false⟩ ∧
        e.b = ⟨.vec, 1, 0, 0, false, false⟩ ∧ e.c.cls = .imm ∧ e.c.imm = 16 ∧ e.sc = 1)
    | _ => false) = true := by decide +kernel

/-- The example of R485: `red.add.u32.rel.pkg s0, 0, 0, s35`. -/
theorem test_decode_red : (match decodeTableWord 160 (fiveWords 0x00000282 0x00800000 0x00007000 0x1A00001C 0x08300001) with
    | some (.red e) => decide (e.mod = 0 ∧ e.a = ⟨.uni, 0, 0, 0, false, false⟩ ∧ e.b.cls = .imm ∧ e.c.cls = .imm ∧
        e.e = ⟨.uni, 35, 0, 0, false, false⟩ ∧ e.sc = 3 ∧ e.ext = 2)
    | _ => false) = true := by decide +kernel

/-- The example of a watched address: `waddr 100000, s0, 32, 0, s20`. -/
theorem test_decode_waddr : (match decodeTableWord 160 (fiveWords 0x000002C7 0x008C3507 0x00107000 0xA200001C 0) with
    | some (.waddr e) => decide (e.d.imm = 100000 ∧ e.a = ⟨.uni, 0, 0, 0, false, false⟩ ∧ e.b.imm = 32 ∧ e.c.imm = 0 ∧ e.e = ⟨.uni, 20, 0, 0, false, false⟩)
    | _ => false) = true := by decide +kernel

/-- The example of a halo exchange: `(p4 & !p6) putsig.die s0, s27, s0, s28, s12`. -/
theorem test_decode_putsig : (match decodeTableWord 160 (fiveWords 0x23040382 0x00800002 0x00062000 0xE2000368 0x00100000) with
    | some (.putsig e) => decide (e.ga = 4 ∧ e.gb = 0x46 ∧ e.d = ⟨.uni, 0, 0, 0, false, false⟩ ∧ e.b = ⟨.uni, 12, 0, 0, false, false⟩ ∧
        e.c = ⟨.uni, 27, 0, 0, false, false⟩ ∧ e.e = ⟨.uni, 28, 0, 0, false, false⟩ ∧ e.sc = 1)
    | _ => false) = true := by decide +kernel

/-- The example of R393: `(p5) sw bld.bc.e4m3.band s20, s32, 0, 0`. -/
theorem test_decode_bldBc : (match decodeTableWord 160 (fiveWords 0x80054F0D 0x408000A2 0x00007000 0x0000001C 0) with
    | some (.bldBc e) => decide (e.mod = 0x13 ∧ e.ga = 5 ∧ e.sw = true ∧ e.d = ⟨.uni, 20, 0, 0, false, false⟩ ∧ e.a = ⟨.uni, 32, 0, 0, false, false⟩)
    | _ => false) = true := by decide +kernel

/-- The families without an example of their own, each from R182 and its table: `bra`, `pand`, `lred`, `rcp`, `fgive`, `cp`, `bwst`,
`tspawn`, `srd`. -/
theorem test_decode_other_families :
    ([word 0x001 0 0 (imm 5) 0 0 0, word 0x100 0 (prd 1) (prd 2) (prd 3) 0 0, word 0x108 1 (vec 2) (vec 1) 0 (prd 9) 0,
      word 0x1C0 0 (vec 2) (vec 1) 0 0 0, word 0x2D0 0 (prd 2) (imm 1) (imm 64) (imm 64) (uni 40),
      word 0x340 0 (uni 8) (uni 16) (imm 0) (imm 0) (imm 64), word 0x360 0 (vec 6) (uni 10) 0 0 0, word 0x3A0 0 (uni 8) (uni 16) (uni 24) 0 0,
      word 0x3C2 0 (uni 4) (spc 5) 0 0 0].map fun w =>
        match decodeTableWord 160 w with
        | some (.bra e) => (1, e.a.imm) | some (.pand e) => (2, e.b.num.toNat) | some (.lred e) => (3, e.a.num.toNat)
        | some (.rcp e) => (4, e.a.num.toNat) | some (.fgive e) => (5, e.e.num.toNat) | some (.cp e) => (6, e.a.num.toNat)
        | some (.bwst e) => (7, e.a.num.toNat) | some (.tspawn e) => (8, e.a.num.toNat) | some (.srd e) => (9, e.a.num.toNat)
        | _ => (0, 0)) =
    [(1, 5), (2, 3), (3, 1), (4, 1), (5, 40), (6, 16), (7, 10), (8, 16), (9, 5)] := by decide +kernel

/-! ## A machine with one fibre -/

/-- The machine whose next step issues a word of core 0 (log 14): launch 1, team 2, fibre 3. -/
def at_ (w : Nat) : State := State.reset.withFetchWord 160 w

/-- One step. -/
def next (s : State) : Option State := match step s with
  | .next t => some t
  | _ => none

/-- What the state after one step holds. -/
def sees {α : Type} (s : State) (g : State → α) : Option α := (next s).map g

/-- A vector register after a step, in some lanes. -/
def vecs (s : State) (q : Nat) (Ls : List Nat) : Option (List Word) := sees s fun t => Ls.map fun L => t.cell 3 .vec q L

/-- The value that the first outstanding result will write, in some lanes. -/
def owed (s : State) (Ls : List Nat) : Option (List Word) :=
  (next s).bind fun t => (t.results.head?).bind fun r => (r.writes.head?).map fun w => Ls.map fun L => SMap.get 0 w.vals L

/-- The trap that a fibre waits to enter after a step: cause, FIELD, DETAIL and MASK. -/
def trapped (s : State) : Option (BitVec 8 × BitVec 3 × BitVec 16 × Mask) :=
  (next s).bind fun t => (t.fibre? 3).bind fun f => f.pending.map fun i => (i.cause, i.field, i.detail, i.mask)

/-- The IPs after a step, in some lanes. -/
def ips (s : State) (Ls : List Nat) : Option (List Word) := (next s).bind fun t => (t.fibre? 3).map fun f => Ls.map f.ip

/-! ## Steps: control, integer, predicates, cross-lane -/

/-- `add.u32` is modulo 2^32 (R206). -/
theorem test_add_wraps :
    vecs (((at_ (word 0x042 1 (vec 3) (vec 1) (vec 2) 0 0)).setV 1 fun _ => 0xFFFFFFFF).setV 2 fun L => L) 3 [0, 1, 5] = some [0xFFFFFFFF, 0, 4] := by
  decide +kernel

/-- A source that is the destination is read before it is written, and a lane pattern names another lane (R175, R176): `add v1, v1.rot(1), 1`. -/
theorem test_add_reads_before_it_writes :
    vecs ((at_ (word 0x042 1 (vec 1) (vec 1 + 2 ^ 11 + 2 ^ 14) (imm 1) 0 0)).setV 1 fun L => 10 * L) 1 [0, 30, 31] = some [11, 311, 1] := by
  decide +kernel

/-- The example of R175: with `%sgw` 8, `v5.sdn(3)` reads lane 13's own register in lane 13, `v5.wrot(10)` lane 10. -/
theorem test_patterns_stay_in_their_sub_group :
    vecs (((at_ (word 0x042 1 (vec 6) (vec 5 + 6 * 2 ^ 11 + 3 * 2 ^ 14) (vec 5 + 5 * 2 ^ 11 + 10 * 2 ^ 14) 0 0)).modFibre 3 fun f =>
      { f with sgw := 8 }).setV 5 fun L => L) 6 [13] = some [23] := by decide +kernel

/-- `adds.i32` saturates (R206). -/
theorem test_adds_saturates :
    vecs ((at_ (word 0x044 0 (vec 3) (vec 1) (imm 1) 0 0)).setV 1 fun _ => 0x7FFFFFFF) 3 [0] = some [0x7FFFFFFF] := by decide +kernel

/-- The example of R207: v4 = 0 and p2 = 1. -/
theorem test_addc_carries :
    sees (((at_ (word 0x046 1 (vec 4) (vec 0) (vec 2) (prd 0 + 2 ^ 20) (prd 2))).setV 0 fun _ => 0xFFFFFFFF).setV 2 fun _ => 1)
      (fun t => (t.cell 3 .vec 4 7, t.cell 3 .pred 2 7)) = some (0, 1) := by decide +kernel

/-- `sar` by the width or more gives the sign (R209); `shl` gives 0. -/
theorem test_sar_fills_with_the_sign :
    vecs ((at_ (word 0x059 0 (vec 3) (vec 1) (imm 40) 0 0)).setV 1 fun L => if L = 0 then 0x80000000 else 5) 3 [0, 1] = some [0xFFFFFFFF, 0] := by
  decide +kernel
theorem test_shl_by_the_width :
    vecs ((at_ (word 0x057 1 (vec 3) (vec 1) (imm 32) 0 0)).setV 1 fun _ => 7) 3 [0] = some [0] := by decide +kernel

/-- `clz` of zero gives 32 (R211). -/
theorem test_clz_of_zero : vecs ((at_ (word 0x05F 1 (vec 3) (vec 1) 0 0 0)).setV 1 fun L => L) 3 [0, 1] = some [32, 31] := by decide +kernel

/-- `bfe.i32` with pos 4 and len 4 sign-extends (R210). -/
theorem test_bfe_sign_extends :
    vecs ((at_ (word 0x05C 0 (vec 3) (vec 1) (imm 0x404) 0 0)).setV 1 fun _ => 0x0F80) 3 [0] = some [0xFFFFFFF8] := by decide +kernel

/-- `cmp.lt.i32` compares signed (R212). -/
theorem test_cmp_is_signed :
    sees ((at_ (word 0x064 0x10 (prd 5) (vec 3) (imm 100) 0 0)).setV 3 fun L => if L = 0 then 0xFFFFFFFF else 100)
      (fun t => (t.cell 3 .pred 5 0, t.cell 3 .pred 5 1)) = some (1, 0) := by decide +kernel

/-- A guarded-off lane keeps its register and moves on (R177, R193). -/
theorem test_guard_keeps_other_lanes :
    sees ((at_ (under 1 (word 0x040 1 (vec 3) (imm 9) 0 0 0))).setP 1 0x1)
      (fun t => (t.cell 3 .vec 3 0, t.cell 3 .vec 3 1, (t.fibre? 3).map fun f => (f.ip 0, f.ip 1))) = some (9, 0, some (1, 1)) := by
  decide +kernel

/-- A write to p0 is discarded (R72). -/
theorem test_p0_stays_true :
    sees (at_ (word 0x102 0 (prd 0) (prd 0) (prd 0) 0 0)) (fun t => t.cell 3 .pred 0 4) = some 1 := by decide +kernel

/-- `bra` moves its lanes alone (R198, R199). -/
theorem test_bra_moves_active_lanes : ips ((at_ (under 1 (word 0x001 0 0 (imm 0) 0 0 0))).setP 1 0x2) [0, 1] = some [1, 0] := by
  decide +kernel

/-- The example of R217: the sum of K is 13, lanes outside the mask keep their own value. -/
theorem test_lred_sums_the_members :
    vecs (((((at_ (under 1 (word 0x108 1 (vec 2) (vec 1) 0 (prd 9) (imm 0x7F)))).modFibre 3 fun f => { f with live := 0xFFFFFFF7 }).setV 1
      fun L => L).setP 1 0xFFFFFFDF)) 2 [0, 1, 2, 4, 6, 7, 31] = some [13, 13, 13, 13, 13, 7, 31] := by decide +kernel

/-- `sgw` of 5 is illegal (R203), `sgw` of 8 sets the width. -/
theorem test_sgw_checks_its_width : trapped (at_ (word 0x00A 0 0 (imm 5) 0 0 0)) = some (2, 2, 9, 0xFFFFFFFF) := by decide +kernel
theorem test_sgw_sets_the_width :
    sees (at_ (word 0x00A 0 0 (imm 8) 0 0 0)) (fun t => (t.fibre? 3).map Fibre.sgw) = some (some 8) := by decide +kernel

/-- `exit` of every lane ends the fibre (R54, R201). -/
theorem test_exit_ends_the_fibre :
    sees (at_ (word 0x006 0 0 0 0 0 0)) (fun t => (t.fibre? 3).map fun f => (f.run, f.live)) = some (some (.ended, 0)) := by decide +kernel

/-- `nap` parks until its cycle (R202). -/
theorem test_nap_parks :
    sees (at_ (word 0x009 0 0 (imm 20) 0 0 0)) (fun t => (t.fibre? 3).map fun f => (f.run, f.waits, f.ip 0)) =
      some (some (.parked, .nap 20 0xFFFFFFFF, 0)) := by decide +kernel

/-! ## Steps: floating point and conversions -/

/-- The example of R226. -/
theorem test_fmin_and_fminx :
    (vecs (((at_ (word 0x144 0 (vec 3) (vec 1) (vec 2) 0 0)).setV 1 fun _ => 0x7FA00000).setV 2 fun _ => 0x80000000) 3 [0],
     vecs (((at_ (word 0x146 0 (vec 3) (vec 1) (vec 2) 0 0)).setV 1 fun _ => 0x7FA00000).setV 2 fun _ => 0x80000000) 3 [0],
     vecs ((at_ (word 0x145 0 (vec 3) (vec 1) (vec 2) 0 0)).setV 2 fun _ => 0x80000000) 3 [0]) =
    (some [0x80000000], some [0x7FC00000], some [0]) := by decide +kernel

/-- 1.0 + 2^-30 rounds to 1.0 and raises NX (R93, R225). -/
theorem test_fadd_rounds :
    sees (((at_ (word 0x140 0 (vec 3) (vec 1) (vec 2) 0 0)).setV 1 fun _ => 0x3F800000).setV 2 fun _ => 0x30800000)
      (fun t => (t.cell 3 .vec 3 0, (t.fibre? 3).map fun f => f.fpflags.toNat % 2)) = some (0x3F800000, some 1) := by decide +kernel

/-- `ffma` rounds once: (1 + 2^-23) * (1 - 2^-23) - 1 is -2^-46 (R225). -/
theorem test_ffma_rounds_once :
    vecs ((((at_ (word 0x143 0 (vec 3) (vec 1) (vec 2) (vec 4) 0)).setV 1 fun _ => 0x3F800001).setV 2 fun _ => 0x3F7FFFFE).setV 4 fun _ => 0xBF800000)
      3 [0] = some [0xA8800000] := by decide +kernel

/-- `fclass` of -0 sets bit 5 (R229). -/
theorem test_fclass_of_minus_zero : vecs ((at_ (word 0x14C 0 (vec 3) (vec 1) 0 0 0)).setV 1 fun _ => 0x80000000) 3 [0] = some [32] := by
  decide +kernel

/-- `log2` of a power of two is exact (R232). -/
theorem test_log2_of_eight : owed ((at_ (word 0x1C4 0 (vec 3) (vec 1) 0 0 0)).setV 1 fun _ => 0x41000000) [0] = some [0x40400000] := by
  decide +kernel

/-- `cvt.s32.f32` of -1.5 under RNE is -2 (R235). -/
theorem test_cvt_to_integer : vecs ((at_ (word 0x1D0 9 (vec 3) (vec 1) 0 0 0)).setV 1 fun _ => 0xBFC00000) 3 [0] = some [0xFFFFFFFE] := by
  decide +kernel

/-! ## Steps: the scratchpad, circular buffers, traps, special registers -/

/-- `sts` of the last byte is in bounds, one more is not (R252). -/
theorem test_sts_at_the_top :
    sees ((at_ (word 0x204 0 (imm 0 - 7 + vec 2) (imm 65535) (imm 0) 0 0)).setV 2 fun L => 0x100 + L)
      (fun t => (t.team? 2).map fun x => SMap.get 0 x.spad 65535) = some (some 31) := by decide +kernel
theorem test_sts_beyond_the_top :
    trapped ((at_ (word 0x204 0 (vec 2) (imm 65536) (imm 0) 0 0)).setV 2 fun _ => 1) = some (0x08, 0, 1, 0xFFFFFFFF) := by decide +kernel

/-- `lds.s16` sign-extends (R247). -/
theorem test_lds_sign_extends :
    owed (((at_ (word 0x203 3 (vec 3) (imm 8) (imm 2) 0 0)).modTeam 2 fun t => { t with spad := [(10, 0x34), (11, 0x82)] })) [0] =
      some [0xFFFF8234] := by decide +kernel

/-- `atoms.add` returns the old value lane by lane (R259). -/
theorem test_atoms_add_in_lane_order : owed ((at_ (word 0x281 0 (vec 3) 0 (imm 64) (imm 0) (vec 2))).setV 2 fun L => L + 1) [0, 1, 2, 31] =
    some [0, 1, 3, 496] := by decide +kernel

/-- `cbtake` of an unconfigured buffer traps with DETAIL 3 (R255). -/
theorem test_cbtake_needs_a_buffer : trapped (at_ (word 0x20B 0 (uni 4) (imm 2) 0 0 0)) = some (0x0D, 0, 3, 0xFFFFFFFF) := by decide +kernel

/-- A zero word is illegal, whatever else stands (R183). -/
theorem test_zero_word_traps : trapped (at_ 0) = some (1, 0, 0, 0xFFFFFFFF) := by decide +kernel

/-- A pair at an odd register is an illegal operand (R74). -/
theorem test_odd_pair_traps : trapped (at_ (word 0x042 3 (vec 3) (vec 2) (vec 4) 0 0)) = some (2, 1, 2, 0xFFFFFFFF) := by decide +kernel

/-- `srd %lane` gives each lane its number (R80). -/
theorem test_srd_lane : vecs (at_ (word 0x3C2 0 (vec 3) (spc 0) 0 0 0)) 3 [0, 31] = some [0, 31] := by decide +kernel

/-- `halt 7` ends the launch with status halted and its code (R329, R344). -/
theorem test_halt_ends_the_launch :
    sees (at_ (word 0x3C6 0 0 (imm 7) 0 0 0)) (fun t => (t.launch? 1).map Launch.outcome) = some (some (some (2, 7))) := by decide +kernel

/-! ## Witnesses: states and operands that meet the hypotheses of the statements -/

/-- The placed word stands in the issue stage, all 32 lanes at its IP. -/
def live (s : State) : State := { s with turn := none, cursor := some ⟨3, 0, 0xFFFFFFFF⟩ }

/-- The fields of a placed word. -/
def enc (w : Nat) : Enc := Enc.ofBits (BitVec.ofNat 160 w)

/-- Runs, no write within its latency, and a condition on the view, as one test. -/
def met (i : Instr) (e : Enc) (s : State) (p : View → Bool) : Bool :=
  match s.view with
  | some v => v.f.run == .current && v.f.waits == .none &&
      (List.range 32).all (fun L => v.f.ip L == v.ip && v.f.ready.getLsbD L) &&
      i.modOk && i.fault v.limits == none && v.t.bad == [] && v.active e != 0 && v.f.hazards == [] && p v
  | none => false

/-- A test that holds gives a view in which the instruction runs. -/
theorem runs_of {i : Instr} {e : Enc} {s : State} {p : View → Bool} (h : met i e s p = true) :
    ∃ v, Runs i e s v ∧ (∀ o n, v.Clear o n) ∧ p v = true := by
  unfold met at h
  split at h
  · rename_i v hv
    simp only [Bool.and_eq_true, beq_iff_eq, bne_iff_ne, ne_eq, List.all_eq_true, List.mem_range] at h
    obtain ⟨⟨⟨⟨⟨⟨⟨⟨hr, hw⟩, hl⟩, hmod⟩, hf⟩, hb⟩, ha⟩, hz⟩, hp⟩ := h
    refine ⟨v, ⟨hv, ⟨hr, hw⟩, fun lane hm => hl lane (BitVec.lt_of_getLsbD hm), hmod, hf, hb, ha⟩, fun o n x hx => ?_, hp⟩
    rw [hz] at hx; contradiction
  · contradiction

/-- What a test says of every lane of a mask. -/
theorem each_lane {m : Mask} {p : Nat → Bool} (h : ((List.range 32).all fun L => !m.getLsbD L || p L) = true) :
    ∀ lane, m.getLsbD lane = true → p lane = true := by
  intro lane hl
  have := List.all_eq_true.mp h lane (List.mem_range.mpr (BitVec.lt_of_getLsbD hl))
  simpa [hl] using this

/-- The same in the placed state as it is. -/
theorem runs0 {i : Instr} {e : Enc} (h : met i e (live (at_ 0)) (fun _ => true) = true) :
    ∃ v, Runs i e (live (at_ 0)) v ∧ ∀ o n, v.Clear o n :=
  let ⟨v, r, c, _⟩ := runs_of h
  ⟨v, r, c⟩

/-- The same for a decidable condition. -/
theorem runs_such {i : Instr} {e : Enc} {s : State} {P : View → Prop} [DecidablePred P] (h : met i e s (fun v => decide (P v)) = true) :
    ∃ v, Runs i e s v ∧ P v :=
  let ⟨v, r, _, p⟩ := runs_of h
  ⟨v, r, of_decide_eq_true p⟩

/-- The same for a condition on the view and one on each active lane. -/
theorem runs_lanes {i : Instr} {e : Enc} {s : State} {P : View → Prop} {Q : View → Nat → Prop} [DecidablePred P]
    [∀ v L, Decidable (Q v L)]
    (h : met i e s (fun v => decide (P v) && (List.range 32).all fun L => !(v.active e).getLsbD L || decide (Q v L)) = true) :
    ∃ v, Runs i e s v ∧ P v ∧ ∀ lane, (v.active e).getLsbD lane = true → Q v lane :=
  let ⟨v, r, _, p⟩ := runs_of h
  have p := (Bool.and_eq_true _ _).mp p
  ⟨v, r, of_decide_eq_true p.1, fun lane hl => of_decide_eq_true (each_lane p.2 lane hl)⟩

/-- `add.u32 v3, v1, v2`. -/
def addE : Enc := enc (word 0x042 1 (vec 3) (vec 1) (vec 2) 0 0)
theorem witness_integer_elements : ∃ e s v g, intElement (.add e) = some (e, false, g) ∧ Runs (.add e) e s v ∧ v.Clear e.d (Ty.int e.ty).words :=
  let ⟨v, h, c⟩ := runs0 (i := .add addE) (e := addE) (by decide +kernel)
  ⟨addE, _, v, _, rfl, h, c _ _⟩

/-- `div.i32 v3, v1, 0`. -/
def divE : Enc := enc (word 0x04C 0 (vec 3) (vec 1) (imm 0) 0 0)
theorem witness_division : ∃ e s v g, intElement (.div e) = some (e, true, g) ∧ Runs (.div e) e s v ∧ v.Clear e.d (Ty.int e.ty).words :=
  let ⟨v, h, c⟩ := runs0 (i := .div divE) (e := divE) (by decide +kernel)
  ⟨divE, _, v, _, rfl, h, c _ _⟩

theorem witness_bitwise : ∃ e s v g, intBit (.and e) = some (e, g) ∧ Runs (.and e) e s v ∧ v.Clear e.d (Ty.int e.ty).words :=
  let e := enc (word 0x052 1 (vec 3) (vec 1) (imm 1) 0 0)
  let ⟨v, h, c⟩ := runs0 (i := .and e) (e := e) (by decide +kernel)
  ⟨e, _, v, _, rfl, h, c _ _⟩

theorem witness_shifts : ∃ e s v g, intShift (.shl e) = some (e, g) ∧ Runs (.shl e) e s v ∧ v.Clear e.d (Ty.int e.ty).words :=
  let e := enc (word 0x057 1 (vec 3) (vec 1) (imm 32) 0 0)
  let ⟨v, h, c⟩ := runs0 (i := .shl e) (e := e) (by decide +kernel)
  ⟨e, _, v, _, rfl, h, c _ _⟩

theorem witness_other_integer : ∃ e n s v g, intValue (.clz e) = some (e, n, g) ∧ Runs (.clz e) e s v ∧ v.Clear e.d (n (v.at (.clz e) e)) :=
  let e := enc (word 0x05F 1 (vec 3) (vec 1) 0 0 0)
  let ⟨v, h, c⟩ := runs0 (i := .clz e) (e := e) (by decide +kernel)
  ⟨e, _, _, v, _, rfl, h, c _ _⟩

theorem witness_carry : ∃ e s v, Runs (.addc e) e s v ∧ v.Clear e.d 1 ∧ v.Clear e.e 1 :=
  let e := enc (word 0x046 1 (vec 4) (vec 0) (vec 2) (prd 2) (prd 2))
  let ⟨v, h, c⟩ := runs0 (i := .addc e) (e := e) (by decide +kernel)
  ⟨e, _, v, h, c _ _, c _ _⟩

theorem witness_predicate_logic : ∃ e s v g, predBit (.pand e) = some (e, g) ∧ Runs (.pand e) e s v ∧ v.Clear e.d 1 :=
  let e := enc (word 0x100 0 (prd 0) (prd 2) (prd 3) 0 0)
  let ⟨v, h, c⟩ := runs0 (i := .pand e) (e := e) (by decide +kernel)
  ⟨e, _, v, _, rfl, h, c _ _⟩

theorem witness_pget : ∃ e s v, Runs (.pget e) e s v ∧ v.Clear e.d 1 :=
  let e := enc (word 0x105 0 (vec 3) (prd 63) 0 0 0)
  let ⟨v, h, c⟩ := runs0 (i := .pget e) (e := e) (by decide +kernel)
  ⟨e, _, v, h, c _ _⟩

theorem witness_cross_lane : ∃ e n own F s v, crossLane (.lred e) = some (e, n, own, F) ∧ Runs (.lred e) e s v ∧
    v.Clear e.d (n (v.at (.lred e) e)) ∧ v.Clear e.c 1 :=
  let e := enc (word 0x108 1 (vec 2) (vec 1) 0 (prd 9) (imm 0x7F))
  let ⟨v, h, c⟩ := runs0 (i := .lred e) (e := e) (by decide +kernel)
  ⟨e, _, _, _, _, v, rfl, h, c _ _, c _ _⟩

theorem witness_ballot : ∃ e s v, Runs (.voteBall e) e s v ∧ v.Clear e.d 1 ∧ v.Clear e.c 1 :=
  let e := enc (word 0x106 2 (uni 4) (prd 5) 0 (prd 0) 0)
  let ⟨v, h, c⟩ := runs0 (i := .voteBall e) (e := e) (by decide +kernel)
  ⟨e, _, v, h, c _ _, c _ _⟩

theorem witness_float_elements : ∃ e s v var g, floatElement (.fadd e) = some (e, var, g) ∧ Runs (.fadd e) e s v ∧ v.Clear e.d 1 :=
  let e := enc (word 0x140 0 (vec 3) (vec 1) (vec 2) 0 0)
  let ⟨v, h, c⟩ := runs0 (i := .fadd e) (e := e) (by decide +kernel)
  ⟨e, _, v, _, _, rfl, h, c _ _⟩

theorem witness_float_lanes : ∃ e s v var g, floatLane (.fcmp e) = some (e, var, g) ∧ Runs (.fcmp e) e s v ∧ v.Clear e.d 1 :=
  let e := enc (word 0x148 0 (prd 3) (vec 1) (vec 2) 0 0)
  let ⟨v, h, c⟩ := runs0 (i := .fcmp e) (e := e) (by decide +kernel)
  ⟨e, _, v, _, _, rfl, h, c _ _⟩

theorem witness_mxq : ∃ e s v, Runs (.mxq e) e s v :=
  let e := enc (word 0x1D2 3 (vec 3) (vec 1) 0 0 (vec 4))
  let ⟨v, h, _⟩ := runs0 (i := .mxq e) (e := e) (by decide +kernel)
  ⟨e, _, v, h⟩

def randE : Enc := enc (word 0x1D8 0 (vec 3) 0 0 0 0)
theorem witness_draws : ∃ v, Runs (.rand randE) randE (live (at_ 0)) v ∧ (v.f.rngmode = 0 ∧ ((live (at_ 0)).core v.t.core).noiseOn = true ∧
    ∀ d ∈ (live (at_ 0)).draws, d.core ≠ v.t.core) := runs_such (by decide +kernel)

/-! ### Control and system -/

/-- An IP lies in the code range, as a test. -/
def inCode (v : View) (ip : Nat) : Bool :=
  decide ((v.l.kernelAt v.t.kernel).entry.toNat ≤ ip ∧ ip < (v.l.kernelAt v.t.kernel).entry.toNat + (v.l.kernelAt v.t.kernel).count.toNat)

theorem inCode_iff {v : View} {ip : Nat} : inCode v ip = true ↔ v.InCode ip := decide_eq_true_iff

/-- `bra` to IP 0, the one word of code. -/
theorem witness_bra : ∃ e s v, transferOf (.bra e) = some (e, false, true) ∧ Runs (.bra e) e s v ∧ v.Clear e.d 1 ∧
    ∀ lane, (v.active e).getLsbD lane = true → v.InCode ((v.at (.bra e) e).tgt true lane) :=
  let e := enc (word 0x001 0 0 (imm 0) 0 0 0)
  let ⟨v, h, c, p⟩ := runs_of (i := .bra e) (e := e) (s := live (at_ 0)) (p := fun v => (List.range 32).all fun L =>
    !(v.active e).getLsbD L || inCode v ((v.at (.bra e) e).tgt true L)) (by decide +kernel)
  ⟨e, _, v, rfl, h, c _ _, fun lane hl => inCode_iff.mp (each_lane p lane hl)⟩

/-- `bra` to IP 1, one past the code. -/
theorem witness_bra_outside : ∃ e s v, Runs (.bra e) e s v ∧
    ∀ lane, lane < 32 → ((0xFFFFFFFF : Mask).getLsbD lane = true ↔
      (v.active e).getLsbD lane = true ∧ ¬ v.InCode ((v.at (.bra e) e).tgt true lane)) :=
  let e := enc (word 0x001 0 0 (imm 1) 0 0 0)
  let ⟨v, h, _, p⟩ := runs_of (i := .bra e) (e := e) (s := live (at_ 0)) (p := fun v => (List.range 32).all fun L =>
    (0xFFFFFFFF : Mask).getLsbD L == ((v.active e).getLsbD L && !inCode v ((v.at (.bra e) e).tgt true L))) (by decide +kernel)
  ⟨e, _, v, h, fun lane hl => by
    have q := eq_of_beq (List.all_eq_true.mp p lane (List.mem_range.mpr hl))
    rw [q, Bool.and_eq_true, Bool.not_eq_true', ← Bool.not_eq_true, inCode_iff]⟩

/-- `calli v30, v0` in a kernel whose one word is an entry nop of nv vector and ns uniform registers. -/
def calliE : Enc := enc (word 0x004 0 (vec 30) (vec 0) 0 0 0)
def entryAt (nv ns : Nat) : State := live (at_ (word 0x008 1 0 (imm nv) (imm ns) 0 0))

/-- What the statements of `calli` ask of a view and of the kernel fetched. -/
def calliMet (s : State) (g : View → Launch → Nat → Bool) (v : View) : Bool :=
  let x := v.at (.calli calliE) calliE
  let r := x.fetchTargets (x.tgt false) (lanesOf (v.active calliE)) s
  (r.1.all fun p => p.2 == .ok) && (match r.2.launch? v.l.id with
    | some k => (List.range 32).all fun L => !(v.active calliE).getLsbD L || (inCode v (x.tgt false L) && g v k (x.tgt false L))
    | none => false)

/-- Every hypothesis of the statements of `calli`, with g for the counts of a target. -/
def CalliHypotheses (s : State) (g : View → Launch → Nat → Bool) : Prop :=
  ∃ s1 v rs k, Runs (.calli calliE) calliE s v ∧ v.Clear calliE.d 1 ∧
    (v.at (.calli calliE) calliE).fetchTargets ((v.at (.calli calliE) calliE).tgt false) (lanesOf (v.active calliE)) s = (rs, s1) ∧
    (∀ r ∈ rs, r.2 = Fetch.ok) ∧ s1.launch? v.l.id = some k ∧
    ∀ lane, (v.active calliE).getLsbD lane = true → v.InCode ((v.at (.calli calliE) calliE).tgt false lane) ∧
      g v k ((v.at (.calli calliE) calliE).tgt false lane) = true

theorem calli_met {s : State} {g : View → Launch → Nat → Bool} (h : met (.calli calliE) calliE s (calliMet s g) = true) : CalliHypotheses s g := by
  obtain ⟨v, r, c, p⟩ := runs_of h
  simp only [calliMet, Bool.and_eq_true, List.all_eq_true, beq_iff_eq] at p
  obtain ⟨hf, p⟩ := p
  split at p
  · rename_i k hk
    refine ⟨_, v, _, k, r, c _ _, rfl, hf, hk, fun lane hl => ?_⟩
    have q := List.all_eq_true.mp p lane (List.mem_range.mpr (BitVec.lt_of_getLsbD hl))
    simpa [hl, inCode_iff] using q
  · contradiction

theorem witness_calli : CalliHypotheses (entryAt 256 128) (fun v k ip => entryCounts k ip == some (256, 128) && decide (256 ≤ v.size) && decide (128 ≤ v.f.allot)) := calli_met (by decide +kernel)
theorem witness_calli_no_entry : CalliHypotheses (live (at_ 0)) (fun _ k ip => (entryCounts k ip).isNone) := calli_met (by decide +kernel)
theorem witness_calli_vectors : CalliHypotheses (entryAt 257 0) (fun v k ip => decide (v.size < ((entryCounts k ip).getD (0, 0)).1)) := calli_met (by decide +kernel)
theorem witness_calli_uniforms : CalliHypotheses (entryAt 256 129) (fun v k ip => decide (((entryCounts k ip).getD (0, 0)).1 ≤ v.size) && decide (v.f.allot < ((entryCounts k ip).getD (0, 0)).2)) := calli_met (by decide +kernel)

theorem witness_exit_yield_nop : (∃ e s v, Runs (.exit e) e s v) ∧ (∃ e s v, Runs (.yield e) e s v) ∧ ∃ e s v, Runs (.nopEntry e) e s v :=
  let e := enc (word 0x006 0 0 0 0 0 0)
  let ⟨v, h, _⟩ := runs0 (i := .exit e) (e := e) (by decide +kernel)
  let d := enc (word 0x007 0 0 0 0 0 0)
  let ⟨w, k, _⟩ := runs0 (i := .yield d) (e := d) (by decide +kernel)
  let c := enc (word 0x008 1 0 (imm 256) (imm 128) 0 0)
  let ⟨u, l, _⟩ := runs0 (i := .nopEntry c) (e := c) (by decide +kernel)
  ⟨⟨e, _, v, h⟩, ⟨d, _, w, k⟩, c, _, u, l⟩

theorem witness_nap : (∃ e s v, Runs (.nap e) e s v ∧ (v.at (.nap e) e).src 2 .u32 0 = 0) ∧
    ∃ e s v, Runs (.nap e) e s v ∧ (v.at (.nap e) e).src 2 .u32 0 = 1 :=
  let e := enc (word 0x009 0 0 (imm 0) 0 0 0)
  let ⟨v, h, _, p⟩ := runs_of (i := .nap e) (e := e) (s := live (at_ 0)) (p := fun v => (v.at (.nap e) e).src 2 .u32 0 == 0) (by decide +kernel)
  let d := enc (word 0x009 0 0 (imm 1) 0 0 0)
  let ⟨w, k, _, q⟩ := runs_of (i := .nap d) (e := d) (s := live (at_ 0)) (p := fun v => (v.at (.nap d) d).src 2 .u32 0 == 1) (by decide +kernel)
  ⟨⟨e, _, v, h, eq_of_beq p⟩, d, _, w, k, eq_of_beq q⟩

/-- The lapse of a nap, before its cycle and on it. -/
theorem witness_nap_expiry : ∃ (s : State) (f : Fibre), s.fibre? 3 = some f ∧ f.waits = .nap 0 0xFFFFFFFF ∧ 0 ≤ s.now :=
  ⟨(at_ 0).modFibre 3 fun f => { f with run := .parked, waits := .nap 0 0xFFFFFFFF }, _, rfl, rfl, Nat.zero_le _⟩

theorem witness_sgw : ∃ e s v, Runs (.sgw e) e s v ∧ (v.at (.sgw e) e).src 2 .u32 0 = 32 :=
  let e := enc (word 0x00A 0 0 (imm 32) 0 0 0)
  let ⟨v, h, _, p⟩ := runs_of (i := .sgw e) (e := e) (s := live (at_ 0)) (p := fun v => (v.at (.sgw e) e).src 2 .u32 0 == 32) (by decide +kernel)
  ⟨e, _, v, h, eq_of_beq p⟩

theorem witness_sgw_of_zero : ∃ e s v, Runs (.sgw e) e s v ∧ (v.at (.sgw e) e).src 2 .u32 0 = 0 :=
  let e := enc (word 0x00A 0 0 (imm 0) 0 0 0)
  let ⟨v, h, _, p⟩ := runs_of (i := .sgw e) (e := e) (s := live (at_ 0)) (p := fun v => (v.at (.sgw e) e).src 2 .u32 0 == 0) (by decide +kernel)
  ⟨e, _, v, h, eq_of_beq p⟩

theorem witness_swr : (∃ e s v, Runs (.swr e) e s v ∧ e.d.num = 19) ∧ (∃ e s v, Runs (.swr e) e s v ∧ e.d.num = 20) ∧
    ∃ e s v, Runs (.swr e) e s v ∧ e.d.num = 22 :=
  let a := enc (word 0x3C3 0 (spc 19) (imm 31) 0 0 0)
  let b := enc (word 0x3C3 0 (spc 20) (imm 3) 0 0 0)
  let c := enc (word 0x3C3 0 (spc 22) (imm 3) 0 0 0)
  let ⟨u, h, _⟩ := runs0 (i := .swr a) (e := a) (by decide +kernel)
  let ⟨v, k, _⟩ := runs0 (i := .swr b) (e := b) (by decide +kernel)
  let ⟨w, l, _⟩ := runs0 (i := .swr c) (e := c) (by decide +kernel)
  ⟨⟨a, _, u, h, rfl⟩, ⟨b, _, v, k, rfl⟩, c, _, w, l, rfl⟩

theorem witness_trap_and_bkpt : (∃ e s v, Runs (.trap e) e s v) ∧ ∃ e s v, Runs (.bkpt e) e s v :=
  let a := enc (word 0x3C0 0 0 (imm 0x7FFFF) 0 0 0)
  let b := enc (word 0x3C4 0 0 (imm 1) 0 0 0)
  let ⟨u, h, _⟩ := runs0 (i := .trap a) (e := a) (by decide +kernel)
  let ⟨v, k, _⟩ := runs0 (i := .bkpt b) (e := b) (by decide +kernel)
  ⟨⟨a, _, u, h⟩, b, _, v, k⟩

/-- A fibre that waits to enter a trap of cause 0x16, in a kernel with or without a handler for it, in or outside the Handler state. -/
def trapping (handles inside : Bool) : State :=
  (((at_ 0).modFibre 3 fun f => { f with run := .trapping, handler := inside, pending := some ⟨0x16, 0, 5, 1, 0, 0⟩ }).modLaunch 1 fun l =>
    { l with kernels := [(0, { Kernel.probe with
        handlerIp := if handles then 0 else 0xFFFFFFFF,
        desc := Kernel.probe.desc ||| BitVec.ofNat 288 (if handles then 2 ^ (224 + 0x16) else 0) })] })

/-- What the statements of trap entry ask. -/
def trapMet (handles inside : Bool) : Bool :=
  let s := trapping handles inside
  match s.fibre? 3 with
  | some f => match s.team? f.team with
    | some t => match s.launch? t.launch with
      | some l => f.pending.isSome && s.trapReady f && f.handler == inside && (l.kernelAt t.kernel).handles 0x16 == handles && l.outcome == none
      | none => false
    | none => false
  | none => false
theorem witness_trap_entry : trapMet true false = true ∧ trapMet false false = true ∧ trapMet true true = true := by decide +kernel

theorem witness_rtt : (∃ e s v, Runs (.rttResume e) e s v ∧ v.f.handler = true) ∧ (∃ e s v, Runs (.rttEnd e) e s v ∧ v.f.handler = true) ∧
    ∃ e s v, Runs (.rttRetry e) e s v ∧ v.f.handler = false :=
  let a := enc (word 0x3C1 0 0 0 0 0 0)
  let b := enc (word 0x3C1 1 0 0 0 0 0)
  let c := enc (word 0x3C1 2 0 0 0 0 0)
  let s := (live (at_ 0)).modFibre 3 fun f => { f with handler := true, preLive := 1 }
  let ⟨u, h, _, p⟩ := runs_of (i := .rttResume a) (e := a) (s := s) (p := fun v => v.f.handler) (by decide +kernel)
  let ⟨v, k, _, q⟩ := runs_of (i := .rttEnd c) (e := c) (s := s) (p := fun v => v.f.handler) (by decide +kernel)
  let ⟨w, l, _, r⟩ := runs_of (i := .rttRetry b) (e := b) (s := live (at_ 0)) (p := fun v => !v.f.handler) (by decide +kernel)
  ⟨⟨a, _, u, h, p⟩, ⟨c, _, v, k, q⟩, b, _, w, l, by simpa using r⟩

theorem witness_firmware_call : ∃ e s v, Runs (.fwcallNoService e) e s v ∧ s.arriveHold v.f = .free ∧ (v.at (.fwcallNoService e) e).src 2 .u32 0 = 255 :=
  let e := enc (word 0x3C5 0 (uni 24) (imm 255) (uni 8) 0 0)
  let ⟨v, h, _, p⟩ := runs_of (i := .fwcallNoService e) (e := e) (s := live (at_ 0))
    (p := fun v => (live (at_ 0)).arriveHold v.f == .free && (v.at (.fwcallNoService e) e).src 2 .u32 0 == 255) (by decide +kernel)
  ⟨e, _, v, h, by simpa using p⟩

theorem witness_firmware_service_256 : ∃ e s v, Runs (.fwcallNoService e) e s v ∧ (v.at (.fwcallNoService e) e).src 2 .u32 0 = 256 :=
  let e := enc (word 0x3C5 0 (uni 24) (imm 256) (uni 8) 0 0)
  let ⟨v, h, _, p⟩ := runs_of (i := .fwcallNoService e) (e := e) (s := live (at_ 0))
    (p := fun v => (v.at (.fwcallNoService e) e).src 2 .u32 0 == 256) (by decide +kernel)
  ⟨e, _, v, h, eq_of_beq p⟩

theorem witness_halt : ∃ e s v, Runs (.halt e) e s v ∧ v.l.outcome = none :=
  let e := enc (word 0x3C6 0 0 (imm 7) 0 0 0)
  let ⟨v, h, _, p⟩ := runs_of (i := .halt e) (e := e) (s := live (at_ 0)) (p := fun v => v.l.outcome == none) (by decide +kernel)
  ⟨e, _, v, h, eq_of_beq p⟩

/-! ### Memory -/

/-- The addresses of gathered lines follow from the addresses of the pieces. -/
theorem addPiece_va (p q : Nat × Seg) (h : p.1 = q.1) : ∀ a b : List VLine, a.map VLine.va = b.map VLine.va →
    (addPiece p a).map VLine.va = (addPiece q b).map VLine.va
  | [], [], _ => by simp [addPiece, h]
  | [], _ :: _, e => by simp at e
  | _ :: _, [], e => by simp at e
  | x :: a, y :: b, e => by
    simp only [List.map_cons, List.cons.injEq] at e
    obtain ⟨e1, e2⟩ := e
    unfold addPiece
    rw [h, e1]
    split
    · simp [e1, e2]
    · split
      · simp [e2]
      · simp [addPiece_va p q h a b e2, e1]

theorem gather_va (ps qs : List (Nat × Seg)) (h : ps.map Prod.fst = qs.map Prod.fst) :
    (gatherLines ps).map VLine.va = (gatherLines qs).map VLine.va := by
  suffices H : ∀ (ps qs : List (Nat × Seg)) (a b : List VLine), ps.map Prod.fst = qs.map Prod.fst → a.map VLine.va = b.map VLine.va →
      (ps.foldl (fun ls p => addPiece p ls) a).map VLine.va = (qs.foldl (fun ls p => addPiece p ls) b).map VLine.va from
    H ps qs [] [] h rfl
  intro ps
  induction ps with
  | nil => intro qs a b h e; cases qs <;> simp_all
  | cons p ps ih =>
    intro qs a b h e
    cases qs with
    | nil => simp at h
    | cons q qs =>
      simp only [List.map_cons, List.cons.injEq] at h
      exact ih qs _ _ h.2 (addPiece_va p q h.1 a b e)

/-- What lines translate to follows from their addresses. -/
theorem translate_va (core ctx : Nat) (p : Perm) : ∀ (a b : List VLine) (s : State), a.map VLine.va = b.map VLine.va →
    (s.translateLines core ctx p a).2 = (s.translateLines core ctx p b).2 ∧
      (s.translateLines core ctx p a).1.map Prod.snd = (s.translateLines core ctx p b).1.map Prod.snd
  | [], [], _, _ => ⟨rfl, rfl⟩
  | [], _ :: _, _, e => by simp at e
  | _ :: _, [], _, e => by simp at e
  | x :: a, y :: b, s, e => by
    simp only [List.map_cons, List.cons.injEq] at e
    have ih := translate_va core ctx p a b (s.translate core ctx x.va p).2 e.2
    simp only [State.translateLines, List.map_cons, ← e.1]
    exact ⟨ih.1, by rw [ih.2]⟩

theorem vlines_va (x : Iss) (code : Nat) (d d2 : Nat → BitVec 128) :
    (x.vlines code d d2).map VLine.va = (x.vlines code noData noData).map VLine.va := by
  refine gather_va _ _ ?_
  simp only [List.map_flatMap]
  refine congrArg (fun f => List.flatMap f _) (funext fun el => ?_)
  unfold Elem.pieces
  simp only
  split <;> rfl

/-- The record of a buffer of 4,096 bytes at 0x10100 with every permission, the given stride, in s8 to s15, and lane 0 alone under p1. -/
def buffered (oob stride : Nat) : State :=
  (((((live (at_ 0)).setP 1 1).setU 8 0x10100).setU 10 stride).setU 11 4096).setU 12 (oob * 2 ^ 20 + 7 * 2 ^ 22)

/-- The hypotheses of the statement about global accesses, as a test. -/
def globalMet (i : Instr) (w : Wants) (s : State) (v : View) (e : Enc) : Bool :=
  let x := v.at i e
  let hold := if w.order.releases = true then s.releaseHold v.f else s.accessHold v.f
  hold == .free && s.pendingOps v.f.id == [] && s.sideLog.all (fun y => y.fid != v.f.id) && (x.buf 2).bad (decide (sizeBytes w.code = 0)) == none && (x.buf 2).denied w.perm == none &&
    (x.named w.code).all (fun el => (el.inb || (x.buf 2).oob != 1) &&
      (!el.inb || (decide (el.reach < 2 ^ 57) && (decide (sizeBytes w.code < 2) || el.va % sizeBytes w.code == 0)))) &&
    (x.named w.code).any Elem.inb &&
    (((s.translateLines v.t.core v.l.ctx w.perm (x.vlines w.code noData noData)).1.map Prod.snd).all fun t => match t with
      | .ok _ => true
      | _ => false)

/-- Every hypothesis of the statement about global accesses at once. -/
def GlobalHypotheses (i : Instr) (e : Enc) (w : Wants) (s : State) : Prop :=
  ∃ s1 v ts, globalAccess i = some (e, w) ∧ Runs i e s v ∧
    (if w.order.releases = true then s.releaseHold v.f else s.accessHold v.f) = .free ∧ s.pendingOps v.f.id = [] ∧
    (∀ y ∈ s.sideLog, y.fid ≠ v.f.id) ∧ (v.at i e).permits w.perm (sizeBytes w.code = 0) ∧ (v.at i e).sound w.code ∧ (∃ el ∈ (v.at i e).named w.code, el.inb = true) ∧
    (∀ data data2, (s.translateLines v.t.core v.l.ctx w.perm ((v.at i e).vlines w.code data data2)).2 = s1 ∧
      ∀ p ∈ (s.translateLines v.t.core v.l.ctx w.perm ((v.at i e).vlines w.code data data2)).1, ∃ pl, p.2 = .ok pl) ∧
    ∃ data data2, (s.translateLines v.t.core v.l.ctx w.perm ((v.at i e).vlines w.code data data2)).1 = ts

theorem global_met {i : Instr} {e : Enc} {w : Wants} {s : State} (g : globalAccess i = some (e, w))
    (h : met i e s (fun v => globalMet i w s v e) = true) : GlobalHypotheses i e w s := by
  obtain ⟨v, r, _, p⟩ := runs_of h
  simp only [globalMet, Bool.and_eq_true, beq_iff_eq, bne_iff_ne, List.all_eq_true, List.any_eq_true] at p
  obtain ⟨⟨⟨⟨⟨⟨⟨ph, pp⟩, pg⟩, pb⟩, pd⟩, ps⟩, pi⟩, pt⟩ := p
  refine ⟨(s.translateLines v.t.core v.l.ctx w.perm ((v.at i e).vlines w.code noData noData)).2, v, _, g, r, ph, pp, pg, ⟨pb, pd⟩, fun el hel => ?_, pi, fun data data2 => ?_, noData, noData, rfl⟩
  · have q := ps el hel
    revert q
    cases el.inb <;> simp <;> omega
  · have T := translate_va v.t.core v.l.ctx w.perm _ _ s (vlines_va (v.at i e) w.code data data2)
    refine ⟨T.1, fun p hp => ?_⟩
    have q := pt p.2 (T.2 ▸ List.mem_map_of_mem hp)
    split at q
    · rename_i pl hpl; exact ⟨pl, hpl⟩
    · contradiction

/-- `(p1) ld.b32 v4, s8, v1, 16` on the last word of the buffer, and `(p1) st.rel` and `(p1) atom.add.u32` on its first. -/
def ldE : Enc := enc (under 1 (word 0x200 4 (vec 4) (uni 8) (vec 1) (imm 16) 0))
theorem witness_load : ∃ w, GlobalHypotheses (.ld ldE) ldE w ((buffered 1 4).setV 1 fun _ => 1019) :=
  ⟨_, global_met rfl (by decide +kernel)⟩
def stE : Enc := enc (under 1 (word 0x201 0x24 (vec 4) (uni 8) (vec 1) (imm 0) 0 + 2 ^ 148))
theorem witness_store : ∃ w, GlobalHypotheses (.st stE) stE w (buffered 1 4) :=
  ⟨_, global_met rfl (by decide +kernel)⟩
def atomE : Enc := enc (under 1 (word 0x280 0 (vec 4) (uni 8) (vec 1) (imm 0) (vec 5) + 2 ^ 148))
theorem witness_atom : ∃ w, GlobalHypotheses (.atom atomE) atomE w (buffered 1 4) :=
  ⟨_, global_met rfl (by decide +kernel)⟩

/-- A record of stride 4 that traps out of bounds: a malformed one, one without PRD, and the first lane out of bounds, at 2^57 and misaligned. -/
theorem witness_malformed_record : ∃ v, Runs (.ld ldE) ldE ((buffered 1 4).setU 13 1) v ∧
    (((buffered 1 4).setU 13 1).accessHold v.f = .free ∧ ((v.at (.ld ldE) ldE).buf 2).bad false = some 1) := runs_such (by decide +kernel)
theorem witness_denied_record : ∃ v, Runs (.ld ldE) ldE ((buffered 1 4).setU 12 (2 ^ 20 + 6 * 2 ^ 22)) v ∧
    (((v.at (.ld ldE) ldE).buf 2).bad false = none ∧ ((v.at (.ld ldE) ldE).buf 2).denied .read = some 1) := runs_such (by decide +kernel)
theorem witness_out_of_bounds : ∃ v, Runs (.ld ldE) ldE ((buffered 1 4).setV 1 fun _ => 1020) v ∧
    ((v.at (.ld ldE) ldE).permits .read false ∧
      elemMask ((v.at (.ld ldE) ldE).named 4) (fun el => ((v.at (.ld ldE) ldE).buf 2).oob = 1 && !el.inb) ≠ 0) := runs_such (by decide +kernel)
theorem witness_beyond_the_addresses : ∃ v, Runs (.ld ldE) ldE (((buffered 1 4).setU 8 0xFFFFFFFC).setU 9 0x01FFFFFF) v ∧
    ((v.at (.ld ldE) ldE).permits .read false ∧
      elemMask ((v.at (.ld ldE) ldE).named 4) (fun el => ((v.at (.ld ldE) ldE).buf 2).oob = 1 && !el.inb) = 0 ∧
      elemMask ((v.at (.ld ldE) ldE).named 4) (fun el => el.inb && decide (2 ^ 57 ≤ el.reach)) ≠ 0) := runs_such (by decide +kernel)
theorem witness_misaligned : ∃ v, Runs (.ld ldE) ldE ((buffered 1 4).setU 8 0x10102) v ∧
    ((v.at (.ld ldE) ldE).permits .read false ∧
      elemMask ((v.at (.ld ldE) ldE).named 4) (fun el => el.inb && decide (el.va % 4 ≠ 0)) ≠ 0) := runs_such (by decide +kernel)

/-- An operation of fibre 3 with one request for one word of a line. -/
def word1 : MemOp :=
  { id := 10, fid := 3, team := 2, core := 0, kind := .store, order := .relaxed, scope := 1, fence := false, signed := false, nbits := 32,
    alloc := true, hint := 0, ip := 0, lanes := 1, zeros := 0, dcls := .vec, dreg := 4, words := 1, result := some 12, tag := false, performed := true }
def req1 : Req :=
  { id := 11, op := 10, line := 128, pa := 128, view := 0, bank := 0, legs := [], segs := [⟨0, 252, 0, 32, 0, 7, 0⟩], state := .sent, got := [], sentAt := 0, noAlloc := false }
def underWay (o : MemOp) (q : Req) : State :=
  { at_ 0 with ops := [o], reqs := [q], results := [⟨12, 3, false, [], 0⟩] }

theorem witness_store_at_home : let s := underWay word1 req1
    s.req? 11 = some req1 ∧ s.ownerOp req1 = some word1 ∧ req1.state = .sent ∧ req1.segs = [⟨0, 252, 0, 32, 0, 7, 0⟩] ∧ word1.kind = .store ∧
      word1.order ≠ .weak ∧ 1 ≤ word1.scope ∧ word1.tag = false ∧ s.lostLine req1.line = false ∧ s.exacts = [] ∧
      ∀ c : Nat, (s.core c).l1 = [] := by
  refine ⟨by decide +kernel, by decide +kernel, rfl, rfl, rfl, by decide, by decide, rfl, by decide +kernel, rfl, fun c => ?_⟩
  by_cases h : c = 0
  · subst h; rfl
  · have : (0 : Nat) ≠ c := fun h' => h h'.symm
    simp [State.core, underWay, at_, State.withFetchWord, State.reset, State.modTower, Core.reset, this]

theorem witness_load_response : let o : MemOp := { word1 with kind := .load }
    let s := underWay o { req1 with state := .done }
    ∃ f t, s.ops.find? (fun o => o.id == 10) = some o ∧ o.result = some 12 ∧ o.performed = true ∧ o.dcls = .vec ∧ o.words = 1 ∧
      s.fibre? o.fid = some f ∧ s.team? f.team = some t ∧ f.hazards = [] ∧ t.bad = [] ∧ f.Comes = false :=
  ⟨_, _, rfl, rfl, rfl, rfl, rfl, rfl, rfl, rfl, rfl, rfl⟩

theorem witness_result_writeback : let x : Result := ⟨12, 3, true, [⟨.vec, 4, 1, [(0, 9)]⟩], 1⟩
    let s := { at_ 0 with results := [x] }
    ∃ f t, s.results.find? (fun x => x.id == 12) = some x ∧ x.known = true ∧ x.writes = [⟨.vec, 4, 1, [(0, 9)]⟩] ∧ s.fibre? x.fid = some f ∧
      s.team? f.team = some t ∧ f.hazards = [] ∧ t.bad = [] ∧ f.Comes = false :=
  ⟨_, _, rfl, rfl, rfl, rfl, rfl, rfl, rfl, rfl⟩

/-- A waiting request that can leave, and one to another package that has waited. -/
theorem witness_dispatch : let q : Req := { req1 with state := .waiting }
    let o : MemOp := { word1 with performed := false }
    (underWay o q).req? 11 = some q ∧ (underWay o q).ownerOp q = some o ∧ (underWay o q).canDispatch q = true ∧
      pkgOfKey q.line = (underWay o q).pkg.pkgNo := by decide +kernel
def away1 : Req := { req1 with state := .waiting, line := 2 ^ 39 }
def leaving : State := underWay { word1 with performed := false } away1
theorem witness_dispatch_remote : leaving.req? 11 = some away1 ∧ leaving.ownerOp away1 = some { word1 with performed := false } ∧
    leaving.canDispatch away1 = true ∧ pkgOfKey away1.line ≠ leaving.pkg.pkgNo := by
  have change : ∀ n : Nat, (leaving.tower n).change = none := by
    intro n
    by_cases h : n = 0
    · subst h; rfl
    · have h : ((0 : Nat) == n) = false := by simpa using fun e => h e.symm
      obtain ⟨y, e, i⟩ : ∃ y, leaving.towers = [y] ∧ y.id = 0 := ⟨_, rfl, rfl⟩
      simp only [State.tower, e, List.find?, i, h, Option.getD]
      rfl
  have drained : ∀ a b, leaving.loopDraining a b = false := by simp [State.loopDraining, leaving, underWay, away1]
  have held : ∀ a b, leaving.portHeld a b = false := by
    intro a b
    simp only [State.portHeld, State.recalibrates, change]
    rfl
  have owner : leaving.ownerOp away1 = some { word1 with performed := false } := by decide +kernel
  refine ⟨by decide +kernel, owner, ?_, by decide +kernel⟩
  have go : (decide (away1.state = .waiting) && leaving.slotFree away1 { word1 with performed := false } &&
      leaving.orderFree away1 { word1 with performed := false }) = true := by decide +kernel
  simp [State.canDispatch, owner, drained, held, go]
theorem witness_no_dispatch : let o : MemOp := { word1 with performed := false }
    (underWay o req1).req? 11 = some req1 ∧ (underWay o req1).ownerOp req1 = some o ∧ (underWay o req1).canDispatch req1 = false := by decide +kernel
theorem witness_remote_timeout : let q : Req := { req1 with line := 2 ^ 39, sentAt := 5 }
    let s := { underWay word1 q with now := 5 + 2 ^ 26 }
    s.req? 11 = some q ∧ s.ownerOp q = some word1 ∧ pkgOfKey q.line ≠ s.pkg.pkgNo ∧
      (s.fibre? 3).map (fun f => decide (f.run ≠ .ended ∧ f.pending = none)) = some true ∧ q.sentAt + 2 ^ 26 ≤ s.now := by decide +kernel

/-- `lds.b32 v4, v1, 0` on the last word of the scratchpad, `sts.b8`, and a byte beyond the top; a misaligned word. -/
def ldsE : Enc := enc (word 0x203 4 (vec 4) (vec 1) (imm 0) 0 0)
def top : State := (live (at_ 0)).setV 1 fun _ => 65532
theorem witness_scratchpad_load : ∃ v, Runs (.lds ldsE) ldsE top v ∧ top.accessHold v.f = .free ∧
    ∀ lane, (v.active ldsE).getLsbD lane = true → (v.at (.lds ldsE) ldsE).spSound none 2 3 4 lane := runs_lanes (by decide +kernel)
def stsE : Enc := enc (word 0x204 4 (vec 4) (vec 1) (imm 0) 0 0)
theorem witness_scratchpad_store : ∃ v, Runs (.sts stsE) stsE top v ∧ top.accessHold v.f = .free ∧
    ∀ lane, (v.active stsE).getLsbD lane = true → (v.at (.sts stsE) stsE).spSound none 2 3 4 lane := runs_lanes (by decide +kernel)
theorem witness_scratchpad_bounds : ∃ v, Runs (.sts stsE) stsE ((live (at_ 0)).setV 1 fun _ => 65533) v ∧ v.t.scratch = 65536 ∧
    ∀ lane, (v.active stsE).getLsbD lane = true → (v.t.scratch : Int) < (v.at (.sts stsE) stsE).spOff 2 3 lane + 4 := runs_lanes (by decide +kernel)
theorem witness_scratchpad_misaligned : ∃ v, Runs (.sts stsE) stsE ((live (at_ 0)).setV 1 fun _ => 65531) v ∧ v.t.scratch = 65536 ∧
    ∀ lane, (v.active stsE).getLsbD lane = true → ¬ (v.t.scratch : Int) < (v.at (.sts stsE) stsE).spOff 2 3 lane + 4 ∧
      (v.at (.sts stsE) stsE).spOff 2 3 lane % 4 ≠ 0 := runs_lanes (by decide +kernel)

/-- Lane 31 alone under p1. -/
def lane31 : State := (live (at_ 0)).setP 1 0x80000000
def atomsE : Enc := enc (under 1 (word 0x281 0 (vec 3) 0 (imm 64) (imm 0) (vec 2)))
theorem witness_scratchpad_atomic : ∃ v, Runs (.atoms atomsE) atomsE lane31 v ∧ (v.active atomsE = BitVec.ofNat 32 (2 ^ 31) ∧
    atomOrder atomsE.ext3 = .relaxed ∧ lane31.strongHold v.f = .free ∧ v.f.coreFence = false ∧
    (lane31.team? ((v.at (.atoms atomsE) atomsE).spTeam (some 2) 31).id).isSome = true ∧
    (v.at (.atoms atomsE) atomsE).spSound (some 2) 3 4 4 31) := runs_such (by decide +kernel)

def ldfeE : Enc := enc (under 1 (word 0x207 0 (vec 3) 0 (imm 64) (imm 0) 0))
theorem witness_full_empty : ∃ v, Runs (.ldfe ldfeE) ldfeE lane31 v ∧ (v.active ldfeE = BitVec.ofNat 32 (2 ^ 31) ∧ ldfeE.a.cls = .none ∧
    (v.at (.ldfe ldfeE) ldfeE).spOff 3 4 31 = 4 * 16 ∧ 4 * 16 + 4 ≤ v.t.scratch ∧ lane31.arriveHold v.f = .free ∧
    (lane31.core v.t.core).l1 = [] ∧ v.t.feq = [] ∧ (∀ u ∈ lane31.teams, u.feq = []) ∧ v.f.waiting = 0 ∧ v.f.reserved = 0) :=
  runs_such (by decide +kernel)
def fsetE : Enc := enc (under 1 (word 0x209 1 0 0 (imm 64) (imm 0) 0))
theorem witness_fset : ∃ v, Runs (.fsetFull fsetE) fsetE lane31 v ∧ (v.active fsetE = BitVec.ofNat 32 (2 ^ 31) ∧ fsetE.a.cls = .none ∧
    (v.at (.fsetFull fsetE) fsetE).spOff 3 4 31 = 4 * 16 ∧ 4 * 16 + 4 ≤ v.t.scratch ∧ lane31.strongHold v.f = .free ∧ v.t.feq = []) :=
  runs_such (by decide +kernel)

/-- Circular buffer 15 with 255 slots of 256 bytes, none configured before; then with a filled, a free, a taken or a claimed slot. -/
def cbcfgE : Enc := enc (word 0x20A 0 0 (imm 15) (imm 256) (imm 256) (imm 255))
theorem witness_cbcfg : ∃ v, Runs (.cbcfg cbcfgE) cbcfgE (live (at_ 0)) v ∧
    ((v.at (.cbcfg cbcfgE) cbcfgE).u32 2 = 15 ∧ (v.at (.cbcfg cbcfgE) cbcfgE).u32 3 = 256 ∧ (v.at (.cbcfg cbcfgE) cbcfgE).u32 4 = 256 ∧
      (v.at (.cbcfg cbcfgE) cbcfgE).u32 5 = 255 ∧ 256 + 255 * 256 ≤ v.t.scratch ∧ SMap.get CBuf.blank v.t.cbufs 15 = CBuf.blank ∧
      ∀ d ∈ (live (at_ 0)).draws, d.core ≠ v.t.core) :=
  runs_such (by decide +kernel)
def withCb (c : CBuf) : State := (live (at_ 0)).modTeam 2 fun t => { t with cbufs := [(15, c)] }
def cbtakeE : Enc := enc (word 0x20B 0 (uni 4) (imm 15) 0 0 0)
def cbfillE : Enc := enc (word 0x20B 1 (uni 4) (imm 15) 0 0 0)
theorem witness_cbtake : ∃ v, Runs (.cbtake cbtakeE) cbtakeE (withCb ⟨0, 16, 2, 1, 0, 1, 1, 0, []⟩) v ∧
    ((withCb ⟨0, 16, 2, 1, 0, 1, 1, 0, []⟩).accessHold v.f = .free ∧ (v.at (.cbtake cbtakeE) cbtakeE).u32 2 = 15 ∧
      (SMap.get CBuf.blank v.t.cbufs 15).filled ≠ 0 ∧ (SMap.get CBuf.blank v.t.cbufs 15).ns ≠ 0 ∧
      ∀ d ∈ (withCb ⟨0, 16, 2, 1, 0, 1, 1, 0, []⟩).draws, d.core ≠ v.t.core) := runs_such (by decide +kernel)
theorem witness_cbtake_waits : ∃ v, Runs (.cbtakeFill cbfillE) cbfillE (withCb ⟨0, 16, 1, 0, 0, 1, 0, 0, []⟩) v ∧
    ((withCb ⟨0, 16, 1, 0, 0, 1, 0, 0, []⟩).accessHold v.f = .free ∧ (v.at (.cbtakeFill cbfillE) cbfillE).u32 2 = 15 ∧
      (SMap.get CBuf.blank v.t.cbufs 15).ns ≠ 0 ∧ (SMap.get CBuf.blank v.t.cbufs 15).free = 0 ∧
      ∀ d ∈ (withCb ⟨0, 16, 1, 0, 0, 1, 0, 0, []⟩).draws, d.core ≠ v.t.core) := runs_such (by decide +kernel)
def cbgiveE : Enc := enc (word 0x20C 0 0 (imm 15) 0 0 0)
def cbgiveFillE : Enc := enc (word 0x20C 1 0 (imm 15) 0 0 0)
theorem witness_cbgive : ∃ v, Runs (.cbgive cbgiveE) cbgiveE (withCb ⟨0, 16, 1, 0, 0, 0, 0, 0, []⟩) v ∧
    ((withCb ⟨0, 16, 1, 0, 0, 0, 0, 0, []⟩).arriveHold v.f 0 = .free ∧ (v.at (.cbgive cbgiveE) cbgiveE).u32 2 = 15 ∧
      (SMap.get CBuf.blank v.t.cbufs 15).ns = 1 ∧ (SMap.get CBuf.blank v.t.cbufs 15).filled + (SMap.get CBuf.blank v.t.cbufs 15).free ≠ 1 ∧
      ∀ d ∈ (withCb ⟨0, 16, 1, 0, 0, 0, 0, 0, []⟩).draws, d.core ≠ v.t.core) := runs_such (by decide +kernel)
theorem witness_cbgive_of_nothing : ∃ v, Runs (.cbgive cbgiveE) cbgiveE (withCb ⟨0, 16, 1, 0, 0, 0, 1, 0, []⟩) v ∧
    ((withCb ⟨0, 16, 1, 0, 0, 0, 1, 0, []⟩).arriveHold v.f 0 = .free ∧ (SMap.get CBuf.blank v.t.cbufs 15).rp = (SMap.get CBuf.blank v.t.cbufs 15).gp ∧
      (SMap.get CBuf.blank v.t.cbufs 15).filled + (SMap.get CBuf.blank v.t.cbufs 15).free = (SMap.get CBuf.blank v.t.cbufs 15).ns ∧
      ∀ d ∈ (withCb ⟨0, 16, 1, 0, 0, 0, 1, 0, []⟩).draws, d.core ≠ v.t.core) := runs_such (by decide +kernel)
theorem witness_cbgive_fill : ∃ v, Runs (.cbgiveFill cbgiveFillE) cbgiveFillE (withCb ⟨0, 16, 1, 0, 0, 0, 0, 0, [(0, false)]⟩) v ∧
    ((withCb ⟨0, 16, 1, 0, 0, 0, 0, 0, [(0, false)]⟩).releaseHold v.f = .free ∧ (withCb ⟨0, 16, 1, 0, 0, 0, 0, 0, [(0, false)]⟩).pendingOps v.f.id = [] ∧
      (v.at (.cbgiveFill cbgiveFillE) cbgiveFillE).u32 2 = 15 ∧ (SMap.get CBuf.blank v.t.cbufs 15).claims = [(0, false)] ∧
      ∀ d ∈ (withCb ⟨0, 16, 1, 0, 0, 0, 0, 0, [(0, false)]⟩).draws, d.core ≠ v.t.core) := runs_such (by decide +kernel)

/-! ### Caches, fences, barriers, waits, windows -/

/-- The placed fibre with a mate of role 1 in its slot. -/
def paired : State :=
  let s := (live (at_ 0)).modTeam 2 fun t => { t with groups := 2, perSlot := 2 }
  { s with fibres := s.fibres ++ (s.fibres.map fun f => { f with id := 5, role := 1, run := .ready }) }

def cinvAllE : Enc := enc (word 0x20E 1 0 0 0 0 0)
theorem witness_cinv_all : ∃ v, Runs (.cinvAll cinvAllE) cinvAllE (live (at_ 0)) v ∧
    ((live (at_ 0)).accessHold v.f = .free ∧ (live (at_ 0)).pendingOps v.f.id = []) := runs_such (by decide +kernel)
def cwbE : Enc := enc (under 1 (word 0x20F 0 0 (uni 8) (vec 1) (imm 16) 0))
theorem witness_cwb : ∃ v, Runs (.cwb cwbE) cwbE (buffered 0 4) v ∧
    ((buffered 0 4).accessHold v.f = .free ∧ (buffered 0 4).pendingOps v.f.id = [] ∧ ((v.at (.cwb cwbE) cwbE).buf 2).bad false = none) :=
  runs_such (by decide +kernel)
def pfE : Enc := enc (under 1 (word 0x20D 1 0 (uni 8) (vec 1) (imm 16) 0))
theorem witness_prefetch : ∃ v, Runs (.pfL1 pfE) pfE (buffered 0 4) v ∧
    ((buffered 0 4).accessHold v.f = .free ∧ ((v.at (.pfL1 pfE) pfE).buf 2).bad false = none ∧ ((v.at (.pfL1 pfE) pfE).buf 2).prd = true) :=
  runs_such (by decide +kernel)

def fenceE : Enc := enc (word 0x2C0 2 0 0 0 0 0 + 2 ^ 148)
theorem witness_fence : ∃ v, Runs (.fenceAr fenceE) fenceE (live (at_ 0)) v ∧ ((live (at_ 0)).pendingOps v.f.id = [] ∧
    (live (at_ 0)).ownLog v.f.id = [] ∧ ∀ t ∈ (live (at_ 0)).teams, t.queues = []) := runs_such (by decide +kernel)
def loading : State := { live (underWay { word1 with kind := .load, performed := false } req1) with nextId := 20 }
theorem witness_fence_behind_a_load : ∃ v, Runs (.fenceAr fenceE) fenceE loading v ∧
    (loading.pendingOps v.f.id = [{ word1 with kind := .load, performed := false }] ∧ 10 < loading.nextId ∧ loading.reqsDone 10 = false ∧ loading.ownLog v.f.id = []) :=
  runs_such (by decide +kernel)
def qfenceE : Enc := enc (word 0x2C1 0 0 (imm 0x7F) 0 0 0)
theorem witness_qfence : ∃ v, Runs (.qfence qfenceE) qfenceE (live (at_ 0)) v ∧ True := runs_such (by decide +kernel)

def barE : Enc := enc (word 0x2C2 0 0 (imm 7) 0 0 0)
theorem witness_bar_waits : ∃ v, Runs (.bar barE) barE paired v ∧ (v.f.handler = false ∧ v.f.id ∉ (barrAt v.t.bars 7).arrived ∧
    paired.arriveHold v.f = .free ∧ ∃ g ∈ paired.liveFibres v.t.id, g.id ≠ v.f.id ∧ g.id ∉ (barrAt v.t.bars 7).arrived) :=
  runs_such (by decide +kernel)
theorem witness_bar_completes : ∃ v, Runs (.bar barE) barE (live (at_ 0)) v ∧ (v.f.handler = false ∧ v.f.id ∉ (barrAt v.t.bars 7).arrived ∧
    (live (at_ 0)).arriveHold v.f = .free ∧ (∀ g ∈ (live (at_ 0)).liveFibres v.t.id, g.id = v.f.id ∨ g.id ∈ (barrAt v.t.bars 7).arrived) ∧
    ((live (at_ 0)).fibres.map Fibre.id).Nodup ∧ ∀ g ∈ (live (at_ 0)).liveFibres v.t.id, g.handler = false ∧ g.run ≠ .held) := runs_such (by decide +kernel)
def barwE : Enc := enc (word 0x2C4 0 0 (imm 0) 0 0 0)
theorem witness_barw : ∃ v, Runs (.barw barwE) barwE (live (at_ 0)) v ∧ (v.f.handler = false ∧ SMap.get 0 v.f.arrived 0 ≤ (barrAt v.t.bars 0).phase) :=
  runs_such (by decide +kernel)
theorem witness_barw_parks : ∃ v, Runs (.barw barwE) barwE ((live (at_ 0)).modFibre 3 fun f => { f with arrived := [(0, 1)] }) v ∧
    (v.f.handler = false ∧ (barrAt v.t.bars 0).phase < SMap.get 0 v.f.arrived 0) := runs_such (by decide +kernel)
def fbarE : Enc := enc (word 0x2C6 0 0 0 0 0 0)
theorem witness_fbar : ∃ v, Runs (.fbar fbarE) fbarE paired v ∧ (v.f.handler = false ∧ paired.arriveHold v.f = .free ∧
    paired.outstanding v.f.id = false ∧ ∃ g ∈ paired.liveFibres v.t.id, g.slot = v.f.slot ∧ g.id ≠ v.f.id ∧
      g.id ∉ (barrAt v.t.fbars v.f.slot).arrived) := runs_such (by decide +kernel)
def cbarE : Enc := enc (word 0x2C5 0 0 0 0 0 0)
theorem witness_cbar : ∃ v, Runs (.cbar cbarE) cbarE paired v ∧ (v.f.handler = false ∧ paired.arriveHold v.f = .free ∧ v.t.clusterSize ≤ 1 ∧
    (paired.core v.t.core).l1 = [] ∧ ∃ g ∈ paired.liveFibres v.t.id, g.id ≠ v.f.id ∧ g.id ∉ v.t.cbar.arrived) := runs_such (by decide +kernel)
theorem witness_barrier_in_a_handler : ∃ v, Runs (.cbar cbarE) cbarE ((live (at_ 0)).modFibre 3 fun f => { f with handler := true }) v ∧
    v.f.handler = true := runs_such (by decide +kernel)

/-- `waddr` of the first word of the buffer with a timeout of 1, and of 0. -/
def waddrE (n : Nat) : Enc := enc (under 1 (word 0x2C7 0 (imm n) (uni 8) (imm 0) (imm 0) (imm 0)))
theorem witness_waddr : ∃ v, Runs (.waddr (waddrE 1)) (waddrE 1) (buffered 1 4) v ∧ ((buffered 1 4).accessHold v.f = .free ∧
    (∀ y ∈ (buffered 1 4).sideLog, y.fid ≠ v.f.id) ∧ (v.at (.waddr (waddrE 1)) (waddrE 1)).u32 1 ≠ 0 ∧
    ((v.at (.waddr (waddrE 1)) (waddrE 1)).buf 2).bad false = none ∧ ((v.at (.waddr (waddrE 1)) (waddrE 1)).buf 2).prd = true ∧
    (∀ el ∈ (v.at (.waddr (waddrE 1)) (waddrE 1)).oneWord ((v.at (.waddr (waddrE 1)) (waddrE 1)).buf 2),
      el.inb = true ∧ el.reach < 2 ^ 57 ∧ el.va % 4 = 0) ∧
    ∀ p ∈ ((buffered 1 4).translateLines v.t.core v.l.ctx .read (gatherLines (elemPieces
      ((v.at (.waddr (waddrE 1)) (waddrE 1)).oneWord ((v.at (.waddr (waddrE 1)) (waddrE 1)).buf 2)) noData noData))).1,
      p.2 = .ok (placeOf 0 0 0x10100)) := runs_such (by decide +kernel)
theorem witness_waddr_of_zero : ∃ v, Runs (.waddr (waddrE 0)) (waddrE 0) (buffered 1 4) v ∧ ((buffered 1 4).accessHold v.f = .free ∧
    (∀ y ∈ (buffered 1 4).sideLog, y.fid ≠ v.f.id) ∧ (v.at (.waddr (waddrE 0)) (waddrE 0)).u32 1 = 0) :=
  runs_such (by decide +kernel)
theorem witness_waddr_timeout : ∃ (s : State) (f : Fibre), s.fibre? 3 = some f ∧ f.waits = .waddr 0 1 ∧ 0 ≤ s.now :=
  ⟨(at_ 0).modFibre 3 fun f => { f with run := .parked, waits := .waddr 0 1 }, _, rfl, rfl, Nat.zero_le _⟩

/-- `fgive p2, 1, 0, 256, s40`: the whole window to the mate; and a claim of an offer, and of nothing. -/
def fgiveE : Enc := enc (word 0x2D0 0 (prd 2) (imm 1) (imm 0) (imm 256) (uni 40))
theorem witness_fgive : ∃ v, Runs (.fgive fgiveE) fgiveE paired v ∧ ((v.at (.fgive fgiveE) fgiveE).u32 2 = 1 ∧
    ((v.mate 1).map fun g => decide (paired.fibre? g.id = some g ∧ g.id ≠ v.f.id ∧ g.run ≠ .ended ∧ fgiveE.e.num.toNat < g.allot)) = some true ∧
    1 < v.t.perSlot ∧ (v.at (.fgive fgiveE) fgiveE).u32 3 = 0 ∧ (v.at (.fgive fgiveE) fgiveE).u32 4 = 256 ∧ v.base ≤ 0 ∧
    0 + 256 ≤ v.base + v.size ∧ paired.outstanding v.f.id = false) := runs_such (by decide +kernel)
def fclaimE : Enc := enc (word 0x2D1 1 (prd 2) (uni 40) 0 0 0)
theorem witness_fclaim : ∃ v, Runs (.fclaimSet fclaimE) fclaimE ((live (at_ 0)).setU 40 (2 ^ 31 + 3 * 2 ^ 26 + 8 * 2 ^ 16 + 504)) v ∧
    (v.f.hazards = [] ∧ (v.reg .uni fclaimE.a.num.toNat 0).toNat = 2 ^ 31 + 3 * 2 ^ 26 + 8 * 2 ^ 16 + 504) := runs_such (by decide +kernel)
theorem witness_fclaim_of_nothing : ∃ v, Runs (.fclaimSet fclaimE) fclaimE (live (at_ 0)) v ∧ (v.reg .uni fclaimE.a.num.toNat 0).toNat < 2 ^ 31 :=
  runs_such (by decide +kernel)
def fwinE : Enc := enc (word 0x2D2 0 (uni 4) 0 0 0 0)
theorem witness_fwin : ∃ v, Runs (.fwin fwinE) fwinE (live (at_ 0)) v ∧ True := runs_such (by decide +kernel)

/-! ### Engines, copies, messages, tasks as instructions -/

/-- Every hypothesis of the statements about entering a queue. -/
def EntersHypotheses (table : Instr → Option (Enc × (Iss → Asked))) (i : Instr) (e : Enc) (s : State) : Prop :=
  ∃ ask v, table i = some (e, ask) ∧ Runs i e s v ∧ v.active e = v.f.live ∧ (ask (v.at i e)).sound ∧
    (v.t.queue (ask (v.at i e)).queue).length < 16

def azeroE : Enc := enc (word 0x303 1 (acc 15) 0 0 0 0)
theorem witness_azero : EntersHypotheses matrixAsks (.azero azeroE) azeroE (live (at_ 0)) :=
  have ⟨v, r, p⟩ := runs_such (i := .azero azeroE) (e := azeroE) (s := live (at_ 0))
    (P := fun v => v.active azeroE = v.f.live ∧ v.kernel.llen ≠ 0 ∧ (v.t.queue 2).length < 16) (by decide +kernel)
  ⟨_, v, rfl, r, p⟩
theorem witness_full_queue : ∃ v, Runs (.azero azeroE) azeroE ((live (at_ 0)).modTeam 2 fun t =>
    { t with queues := List.replicate 16 ⟨9, .azero, 2, 3, 0, 0, azeroE, 0, [], [], 0, 0, 0, false, none, [], none, 0, 0, [], 0, [], 0, 0, 0⟩ }) v ∧
    (v.active azeroE = v.f.live ∧ v.kernel.llen ≠ 0 ∧ 16 ≤ (v.t.queue 2).length) := runs_such (by decide +kernel)

/-- Records with every permission: of 256 KiB of stride 4,096 at 0 in s8, of 4,096 bytes of stride 64 at 0x10100 in s16. -/
def twoBuffers : State :=
  ((((((live (at_ 0)).setU 10 4096).setU 11 0x40000).setU 12 (7 * 2 ^ 22)).setU 16 0x10100).setU 18 64).setU 19 4096 |>.setU 20 (2 ^ 20 + 7 * 2 ^ 22)

/-- `bld.e4m3.band 0x101, s8, 0, 0` of one granule for each column. -/
def bldE : Enc := enc (word 0x30C 3 (imm 0x100) (uni 8) (imm 0) (imm 0) 0)
theorem witness_bld : EntersHypotheses matrixAsks (.bld bldE) bldE twoBuffers :=
  have ⟨v, r, p⟩ := runs_such (i := .bld bldE) (e := bldE) (s := twoBuffers)
    (P := fun v => v.active bldE = v.f.live ∧ (bldValid ((v.at (.bld bldE) bldE).u32 1) false = true ∧
      (v.at (.bld bldE) bldE).rowsReady ((v.at (.bld bldE) bldE).u32 1 / 2 ^ 8 % 2 ^ 8) .read) ∧ (v.t.queue 3).length < 16) (by decide +kernel)
  ⟨_, v, rfl, r, p⟩

/-- A part of the lanes; a kernel without leases; a team without entries. -/
def azero1E : Enc := enc (under 1 (word 0x303 0 (acc 15) 0 0 0 0))
theorem witness_partial_mask : ∃ v, Runs (.azero azero1E) azero1E lane31 v ∧ v.active azero1E ≠ v.f.live := runs_such (by decide +kernel)
theorem witness_no_lease : ∃ v, Runs (.azero azeroE) azeroE ((live (at_ 0)).modLaunch 1 fun l => { l with kernels := [] }) v ∧
    (v.active azeroE = v.f.live ∧ v.kernel.llen = 0) := runs_such (by decide +kernel)
def bwstE : Enc := enc (word 0x360 0 (vec 6) (uni 10) 0 0 0)
theorem witness_no_entries : ∃ v, Runs (.bwst bwstE) bwstE (live (at_ 0)) v ∧ (v.active bwstE = v.f.live ∧ v.t.nslots = 0) :=
  runs_such (by decide +kernel)

/-- The example of R281, `mma a2, t4, 0xC333`, with the lease held and its last count, and without it. -/
def mmaE : Enc := enc (word 0x300 0 (acc 2) (til 4) (imm 0xC333) 0 0)
def holding (n : Nat) : State := (live (at_ 0)).modTeam 2 fun t => { t with lease := .held, leaseLeft := n }
def releasing : State := (live (at_ 0)).modTeam 2 fun t => { t with lease := .releasing }
theorem witness_mma_counts : ∃ v, Runs (.mma mmaE) mmaE (holding 2) v ∧ (v.active mmaE = v.f.live ∧ v.kernel.llen ≠ 0 ∧
    mmaValid ((v.at (.mma mmaE) mmaE).u32 3) mmaE.a.num.toNat = true ∧ (v.t.queue 2).length < 16 ∧ v.t.lease = .held ∧ 1 < v.t.leaseLeft) :=
  runs_such (by decide +kernel)
theorem witness_mma_last_count : ∃ v, Runs (.mma mmaE) mmaE (holding 1) v ∧ (v.t.leaseLeft ≤ 1 ∧
    ¬ ∃ u ∈ (holding 1).teams, u.core = v.t.core ∧ u.id ≠ v.t.id ∧ u.lease = .waiting) := runs_such (by decide +kernel)
def contended : State := { holding 1 with teams := (holding 1).teams ++ ((holding 1).teams.map fun t => { t with id := 7, lease := .waiting }) }
theorem witness_mma_contended : ∃ v, Runs (.mma mmaE) mmaE contended v ∧ (v.t.leaseLeft ≤ 1 ∧
    ∃ u ∈ contended.teams, u.core = v.t.core ∧ u.id ≠ v.t.id ∧ u.lease = .waiting) := runs_such (by decide +kernel)
theorem witness_mma_requests : (∃ v, Runs (.mma mmaE) mmaE (live (at_ 0)) v ∧ (v.active mmaE = v.f.live ∧ v.kernel.llen ≠ 0 ∧
      mmaValid ((v.at (.mma mmaE) mmaE).u32 3) mmaE.a.num.toNat = true ∧ (v.t.queue 2).length < 16 ∧ v.t.lease = .none)) ∧
    ∃ v, Runs (.mma mmaE) mmaE releasing v ∧ (v.active mmaE = v.f.live ∧ v.kernel.llen ≠ 0 ∧
      mmaValid ((v.at (.mma mmaE) mmaE).u32 3) mmaE.a.num.toNat = true ∧ (v.t.queue 2).length < 16 ∧ v.t.lease = .releasing) :=
  ⟨runs_such (by decide +kernel), runs_such (by decide +kernel)⟩
def leaseE : Enc := enc (word 0x301 0 0 0 0 0 0)
theorem witness_lease : (∃ v, Runs (.lease leaseE) leaseE (holding 1) v ∧ (v.active leaseE = v.f.live ∧ v.kernel.llen ≠ 0 ∧ v.t.lease = .held)) ∧
    ∃ v, Runs (.lease leaseE) leaseE (live (at_ 0)) v ∧ (v.active leaseE = v.f.live ∧ v.kernel.llen ≠ 0 ∧ v.t.lease = .none) :=
  ⟨runs_such (by decide +kernel), runs_such (by decide +kernel)⟩
def unleaseE : Enc := enc (word 0x302 0 0 0 0 0 0)
theorem witness_unlease : ∃ v, Runs (.unlease unleaseE) unleaseE (holding 1) v ∧ (v.active unleaseE = v.f.live ∧ v.kernel.llen ≠ 0 ∧
    v.t.lease = .held ∧ (∀ o ∈ v.t.queues, o.kind ≠ .mma) ∧ ∀ f ∈ (holding 1).fibres, f.team = v.t.id → f.waits ≠ .lease) := runs_such (by decide +kernel)
theorem witness_lease_grant : let s := (at_ 0).modTeam 2 fun t => { t with lease := .waiting }
    ∃ t l, s.team? t.id = some t ∧ t.core = 0 ∧ t.lease = .waiting ∧ t.slotNo < 16 ∧ (s.core 0).arbLast < 16 ∧ s.launch? t.launch = some l ∧
      (∀ u ∈ s.teams, u.core = 0 → u.lease ≠ .held ∧ u.lease ≠ .releasing) ∧
      ∀ u ∈ s.teams, u.core = 0 → u.lease = .waiting → u = t ∨ 16 ≤ u.slotNo ∨
        (t.slotNo + 15 - (s.core 0).arbLast) % 16 < (u.slotNo + 15 - (s.core 0).arbLast) % 16 :=
  ⟨_, _, rfl, rfl, rfl, by decide +kernel, by decide +kernel, rfl, by decide +kernel, fun _ h _ _ => .inl (List.mem_singleton.mp h)⟩

/-- `cp.sp.gl` of 64 bytes from s16 to offset 0 of the own scratchpad, from offset 4,032 on. -/
def cpE : Enc := enc (word 0x340 1 0 (uni 16) (imm 64) (imm 0) (imm 4032))
theorem witness_copy : EntersHypotheses moveAsks (.cp cpE) cpE twoBuffers :=
  have ⟨v, r, l, n, g, sp, nr, q⟩ := runs_such (i := .cp cpE) (e := cpE) (s := twoBuffers)
    (P := fun v => v.active cpE = v.f.live ∧ ((v.at (.cp cpE) cpE).shape .cp).n ≤ 2 ^ 24 ∧ (v.at (.cp cpE) cpE).grants 2 .read ∧
      (v.at (.cp cpE) cpE).spadRows 1 1 ((v.at (.cp cpE) cpE).i32 4) ((v.at (.cp cpE) cpE).shape .cp).n ((v.at (.cp cpE) cpE).shape .cp).rows
        ((v.at (.cp cpE) cpE).shape .cp).dp ∧
      ((v.at (.cp cpE) cpE).buf 2).rowsNear ((v.at (.cp cpE) cpE).i32 5) ((v.at (.cp cpE) cpE).shape .cp).n
        ((v.at (.cp cpE) cpE).shape .cp).rows ((v.at (.cp cpE) cpE).shape .cp).sp ∧ (v.t.queue 1).length < 16) (by decide +kernel)
  ⟨_, v, rfl, r, l, ⟨(absurd · (by decide : ¬ copyKind cpE true = 2)), (absurd · (by decide : ¬ copyKind cpE false = 2)), n,
    fun h => h.elim nofun nofun, (absurd · (by decide : ¬ copyKind cpE true = 0)), fun _ => g, fun _ => sp,
    (absurd (by decide : copyKind cpE false = 0) ·), fun _ => ⟨(absurd · (by decide : ¬ copyKind cpE true = 0)), fun _ => nr⟩⟩, q⟩

/-- A pending operation of a queue of the team. -/
def pend (id : Nat) (k : EngKind) (q : Nat) (e : Enc) (vals : List Nat) : EngOp :=
  ⟨id, k, q, 3, 0, 0xFFFFFFFF, e, 0, vals, [], 0, 0, 0, false, none, [], none, 0, 0, [], 0, [], 0, 0, 0⟩
def with_ (o : EngOp) (s : State) : State := { s.modTeam 2 fun t => { t with queues := [o] } with nextId := 20 }

def cpwE (n : Nat) : Enc := enc (word 0x345 0 (uni 4) (imm n) 0 0 0)
theorem witness_copy_wait : ∃ v, Runs (.cpw (cpwE 15)) (cpwE 15) (live (at_ 0)) v ∧ (v.active (cpwE 15) = v.f.live ∧ v.t.queue 7 = [] ∧
    (v.at (.cpw (cpwE 15)) (cpwE 15)).u32 2 ≤ 15 ∧ (v.t.queue 1).length ≤ (v.at (.cpw (cpwE 15)) (cpwE 15)).u32 2 ∧
    (∀ q ∈ v.t.queues, q.id < (live (at_ 0)).nextId) ∧ ∀ r ∈ (live (at_ 0)).results, r.id < (live (at_ 0)).nextId) := runs_such (by decide +kernel)
theorem witness_copy_wait_behind_one : let s := with_ (pend 9 .cp 1 cpE []) (live (at_ 0))
    ∃ v, Runs (.cpw (cpwE 0)) (cpwE 0) s v ∧ (v.active (cpwE 0) = v.f.live ∧ v.t.queue 7 = [] ∧ (∀ q ∈ v.t.queues, q.id < s.nextId) ∧
      (∀ r ∈ s.results, r.id < s.nextId) ∧ (v.at (.cpw (cpwE 0)) (cpwE 0)).u32 2 < (v.t.queue 1).length) := runs_such (by decide +kernel)
def bwbarE : Enc := enc (word 0x362 0 (uni 4) 0 0 0 0)
theorem witness_beat_wait : ∃ v, Runs (.bwbar bwbarE) bwbarE (live (at_ 0)) v ∧ (v.active bwbarE = v.f.live ∧ v.t.queue 7 = [] ∧ v.t.queues = []) :=
  runs_such (by decide +kernel)
theorem witness_beat_wait_behind_one : let s := with_ (pend 9 .bwst 4 bwstE []) (live (at_ 0))
    ∃ v, Runs (.bwbar bwbarE) bwbarE s v ∧ (v.active bwbarE = v.f.live ∧ v.t.queue 7 = [] ∧ (∀ q ∈ v.t.queues, q.id < s.nextId) ∧
      ∃ q ∈ v.t.queues, q.kind = .bwst) := runs_such (by decide +kernel)

/-- A grant of the first 128 bytes of the window; `bwld.b32` of each word of it, and one word on. -/
def granted : State := (live (at_ 0)).modLaunch 1 fun l => { l with record := List.replicate 0x3A 0 ++ [2, 0] }
def bwldE : Enc := enc (word 0x361 0 (vec 3) (imm 0) (vec 1) 0 0)
theorem witness_stack_read : ∃ v, Runs (.bwld bwldE) bwldE (granted.setV 1 fun L => 4 * L) v ∧ (v.active bwldE = v.f.live ∧
    (granted.setV 1 fun L => 4 * L).pendingOps v.f.id = [] ∧ (∀ c ∈ (granted.setV 1 fun L => 4 * L).calls, c.fid ≠ v.f.id) ∧
    ((granted.setV 1 fun L => 4 * L).layer (dieOf v.t.core)).bad = []) ∧
    ∀ lane, (v.active bwldE).getLsbD lane = true →
      ¬ ((v.at (.bwld bwldE) bwldE).u32 2 + (v.at (.bwld bwldE) bwldE).src 3 .u32 lane < v.l.grant.1 ∨
        v.l.grant.2 < (v.at (.bwld bwldE) bwldE).u32 2 + (v.at (.bwld bwldE) bwldE).src 3 .u32 lane + 4) ∧
      ((v.at (.bwld bwldE) bwldE).u32 2 + (v.at (.bwld bwldE) bwldE).src 3 .u32 lane) % 4 = 0 := runs_lanes (by decide +kernel)
theorem witness_stack_read_outside : ∃ v, Runs (.bwld bwldE) bwldE (granted.setV 1 fun _ => 128) v ∧ (v.active bwldE = v.f.live) ∧
    ∀ lane, (v.active bwldE).getLsbD lane = true →
      v.l.grant.2 < (v.at (.bwld bwldE) bwldE).u32 2 + (v.at (.bwld bwldE) bwldE).src 3 .u32 lane + 4 := runs_lanes (by decide +kernel)
def bwslotE : Enc := enc (word 0x363 0 (uni 4) (imm 0) 0 0 0)
theorem witness_slot : ∃ v, Runs (.bwslot bwslotE) bwslotE (live (at_ 0)) v ∧ v.active bwslotE = v.f.live := runs_such (by decide +kernel)

/-- `am` of 16 words to core 95 of die 23; `put.sp` of 64 bytes to s16. -/
def amE : Enc := enc (word 0x380 0 0 (uni 60) (imm 0) (uni 8) (imm 16) + 3 * 2 ^ 148)
def amState : State := ((live (at_ 0)).setU 60 (95 + 23 * 2 ^ 7)).modLaunch 1 fun l => { l with handlers := [0] }
theorem witness_message : EntersHypotheses messageAsks (.am amE) amE amState :=
  have ⟨v, r, p⟩ := runs_such (i := .am amE) (e := amE) (s := amState)
    (P := fun v => v.active amE = v.f.live ∧ ((v.at (.am amE) amE).u32 2 % 2 ^ 7 ≤ 95 ∧ (v.at (.am amE) amE).u32 2 / 2 ^ 7 % 2 ^ 5 ≤ 23 ∧
      (v.at (.am amE) amE).u32 2 / 2 ^ 12 % 2 ^ 7 ∈ (v.at (.am amE) amE).v.s.pkg.pool ∧
      (v.at (.am amE) amE).u32 3 < (v.at (.am amE) amE).v.l.handlers.length ∧ (v.at (.am amE) amE).u32 5 ≤ 16 ∧
      amE.c.num.toNat + (v.at (.am amE) amE).u32 5 ≤ (v.at (.am amE) amE).v.f.allot) ∧ (v.t.queue 5).length < 16) (by decide +kernel)
  ⟨_, v, rfl, r, p⟩
def putE : Enc := enc (word 0x381 1 (uni 16) 0 (imm 64) (imm 4032) (imm 0))
theorem witness_put : EntersHypotheses messageAsks (.put putE) putE twoBuffers :=
  have ⟨v, r, l, n, g, nr, sp, q⟩ := runs_such (i := .put putE) (e := putE) (s := twoBuffers)
    (P := fun v => v.active putE = v.f.live ∧ (v.at (.put putE) putE).u32 3 ≤ 2 ^ 24 ∧ (v.at (.put putE) putE).grants 1 .write ∧
      ((v.at (.put putE) putE).buf 1).rowsNear ((v.at (.put putE) putE).i32 4) ((v.at (.put putE) putE).u32 3) 1 0 ∧
      (v.at (.put putE) putE).spadRows 2 1 ((v.at (.put putE) putE).i32 5) ((v.at (.put putE) putE).u32 3) 1 0 ∧
      (v.t.queue 5).length < 16) (by decide +kernel)
  ⟨_, v, rfl, r, l, ⟨n, fun _ => ⟨g, nr⟩,
    (absurd · (by decide : ¬ (!(decide (putE.mod.toNat % 2 = 1) && decide (EngKind.put ≠ .get))) = true)),
    (absurd · (by decide : ¬ (!(decide (putE.mod.toNat % 2 = 1) && decide (EngKind.put = .get))) = false)), fun _ => sp, nofun⟩, q⟩

/-- `sigw` on the last word of the buffer, `collw` on its first line. -/
def sigwE : Enc := enc (under 1 (word 0x387 0 0 (uni 8) (imm 1023) (imm 0) (imm 1) + 2 ^ 148))
theorem witness_signal_wait : ∃ v, Runs (.sigw sigwE) sigwE (buffered 1 4) v ∧ (((v.at (.sigw sigwE) sigwE).buf 2).bad false = none ∧
    ((v.at (.sigw sigwE) sigwE).buf 2).denied .read = none ∧
    (∀ el ∈ (v.at (.sigw sigwE) sigwE).oneWordOf (.sigw sigwE), el.inb = true ∧ el.reach < 2 ^ 57 ∧ el.va % 4 = 0) ∧
    (buffered 1 4).accessHold v.f = .free ∧ (buffered 1 4).pendingOps v.f.id = [] ∧ (∀ y ∈ (buffered 1 4).sideLog, y.fid ≠ v.f.id) ∧
    ∀ y ∈ ((buffered 1 4).translateLines v.t.core v.l.ctx .read
      (gatherLines (elemPieces ((v.at (.sigw sigwE) sigwE).oneWordOf (.sigw sigwE)) noData noData))).1, y.2 = .ok (placeOf 0 0 0x11080)) :=
  runs_such (by decide +kernel)
def collE : Enc := enc (under 1 (word 0x385 0 0 (uni 8) (imm 0) 0 0 + 2 ^ 148))
theorem witness_collective : ∃ v, Runs (.coll collE) collE (buffered 1 4) v ∧ ((v.t.queue 6).length < 16 ∧
    ((v.at (.coll collE) collE).buf 2).bad false = none ∧ ((v.at (.coll collE) collE).buf 2).denied .read = none ∧
    ((v.at (.coll collE) collE).buf 2).denied .write = none ∧
    (∀ el ∈ (v.at (.coll collE) collE).oneWordOf (.coll collE), el.inb = true ∧ el.reach < 2 ^ 57 ∧ el.va % 4 = 0) ∧
    (v.at (.coll collE) collE).u32 3 % 64 = 0 ∧ (v.at (.coll collE) collE).u32 3 + 64 ≤ ((v.at (.coll collE) collE).buf 2).extent ∧
    ((v.at (.coll collE) collE).buf 2).bad true = none ∧
    (buffered 1 4).accessHold v.f = .free ∧ (buffered 1 4).pendingOps v.f.id = [] ∧ (∀ y ∈ (buffered 1 4).sideLog, y.fid ≠ v.f.id) ∧
    ∀ y ∈ ((buffered 1 4).translateLines v.t.core v.l.ctx .write
      (gatherLines (elemPieces ((v.at (.coll collE) collE).oneWordOf (.coll collE)) noData noData))).1, y.2 = .ok (placeOf 0 0 0x10100)) :=
  runs_such (by decide +kernel)

/-- `app.row64` of lane 31 from row 1 of s16 to list 0 of s16. -/
def appE : Enc := enc (under 1 (word 0x384 3 (vec 6) (uni 16) (imm 0) (uni 16) (imm 1) + 3 * 2 ^ 148))
theorem witness_append : let s := twoBuffers.setP 1 0x80000000
    ∃ v, Runs (.app appE) appE s v ∧ ((v.t.queue 5).length < 16 ∧ (∀ y ∈ s.sideLog, y.fid ≠ v.f.id) ∧ ((v.at (.app appE) appE).buf 2).bad true = none ∧
      ((v.at (.app appE) appE).buf 2).denied .atomic = none ∧ ((v.at (.app appE) appE).buf 2).denied .write = none ∧
      ((v.at (.app appE) appE).buf 4).bad true = none ∧ ((v.at (.app appE) appE).buf 4).denied .read = none ∧
      (lanesOf (v.active appE)).map (fun lane => ((v.at (.app appE) appE).src 3 .u32 lane * ((v.at (.app appE) appE).buf 2).stride,
        (v.at (.app appE) appE).src 5 .u32 lane * ((v.at (.app appE) appE).buf 4).stride)) = [(0, 64)] ∧
      ∀ p ∈ (s.translateLines v.t.core v.l.ctx .atomic (gatherLines (rangeLines ((v.at (.app appE) appE).buf 2) 31 0 64))).1 ++
        ((s.translateLines v.t.core v.l.ctx .atomic (gatherLines (rangeLines ((v.at (.app appE) appE).buf 2) 31 0 64))).2.translateLines
          v.t.core v.l.ctx .read (gatherLines (rangeLines ((v.at (.app appE) appE).buf 4) 31 64 64))).1, p.2 = .ok (placeOf 0 0 0x10100)) :=
  runs_such (by decide +kernel)

/-- A task record without ranges in the line at 0x10200, for an open task launch whose own record lies at n. -/
def tspawnE : Enc := enc (under 1 (word 0x3A0 0 (uni 4) (uni 8) (imm 0x100) 0 0))
def spawner (n : Nat) : State :=
  let s := buffered 1 4
  { s with mem := Memory.writeN s.mem (placeOf 0 0 0x10200).key 8 0x100,
           launches := s.launches ++ [{ Launch.start 8 0 n 0 0 0 [] with kind := 1, isOpen := true }] }

/-- What the statement about `tspawn` asks, with a record that is accepted or refused. -/
def tspawnMet (accepted : Bool) (s : State) (v : View) : Bool :=
  let x := v.at (.tspawn tspawnE) tspawnE
  decide (x.u32 3 % 64 = 0 ∧ x.u32 3 + 64 ≤ (x.buf 2).extent ∧ (x.buf 2).bad false = none ∧ (x.buf 2).denied .read = none ∧
    (∀ l ∈ runLines (x.buf 2) ((lanesOf (v.active tspawnE)).headD 0) (x.u32 3) 64, l.va < 2 ^ 57) ∧ s.arriveHold v.f = .free ∧ s.freeEntry = some 0 ∧ (s.core v.t.core).l1 = []) &&
  match s.translateLines v.t.core v.l.ctx .read (runLines (x.buf 2) ((lanesOf (v.active tspawnE)).headD 0) (x.u32 3) 64) with
  | (ts, s1) =>
    (ts.all fun p => match p.2 with
      | .ok _ => true
      | _ => false) &&
    let r := s1.readLines v.t.id (lineHits ts)
    match r.2.openLaunch v.l.ctx (r.1 % 2 ^ 64) 1 with
    | some k => accepted && decide (r.2.launch? k.id = some k ∧ taskRefusal r.1 (some k) = none)
    | none => !accepted && decide (taskRefusal r.1 none ≠ none)
theorem witness_task : met (.tspawn tspawnE) tspawnE (spawner 0x100) (tspawnMet true (spawner 0x100)) = true := by decide +kernel
theorem witness_refused_task : met (.tspawn tspawnE) tspawnE (spawner 0x140) (tspawnMet false (spawner 0x140)) = true := by decide +kernel

/-- `tcommit` in a grid, in a task before and after its commit. -/
def tcommitE : Enc := enc (word 0x3A1 0 0 0 0 0 0)
def inTask (done : Bool) : State := ((live (at_ 0)).modLaunch 1 fun l => { l with kind := 1 }).modTeam 2 fun t => { t with committed := done }
theorem witness_tcommit : (∃ v, Runs (.tcommit tcommitE) tcommitE (live (at_ 0)) v ∧ v.l.kind ≠ 1) ∧
    (∃ v, Runs (.tcommit tcommitE) tcommitE ((inTask false).modFibre 3 fun f => { f with handler := true }) v ∧ (v.l.kind = 1 ∧ v.f.handler = true)) ∧
    (∃ v, Runs (.tcommit tcommitE) tcommitE (inTask true) v ∧ (v.l.kind = 1 ∧ v.f.handler = false ∧ (inTask true).arriveHold v.f = .free ∧
      ((inTask true).core v.t.core).l1 = [] ∧ v.t.committed = true)) ∧
    ∃ v, Runs (.tcommit tcommitE) tcommitE (inTask false) v ∧ (v.l.kind = 1 ∧ v.f.handler = false ∧ (inTask false).arriveHold v.f = .free ∧
      ((inTask false).core v.t.core).l1 = [] ∧ v.t.committed = false) :=
  ⟨runs_such (by decide +kernel), runs_such (by decide +kernel), runs_such (by decide +kernel), runs_such (by decide +kernel)⟩

/-- `nemit v248, 0` into an open node. -/
def nemitE : Enc := enc (word 0x3A2 0 (vec 248) (imm 0) 0 0 0)
def emitter : State :=
  let s := (live (at_ 0)).modLaunch 1 fun l => { l with nodes := [0x100] }
  { s with launches := s.launches ++ [{ Launch.start 8 0 0x100 0 0 0 [] with kind := 2, isOpen := true }] }
theorem witness_nemit : ∃ v, Runs (.nemit nemitE) nemitE emitter v ∧ ((v.at (.nemit nemitE) nemitE).u32 2 = 0 ∧ 0 < v.l.nodes.length ∧
    ((emitter.openLaunch v.l.ctx (v.l.nodes.getD 0 0) 2).map fun l => decide (emitter.launch? l.id = some l ∧
      nemitE.d.num.toNat + (l.kernelAt l.kernel).nodeShape.1 ≤ v.size ∧ emitter.nodeRoom l = true)) = some true ∧
    emitter.arriveHold v.f = .free ∧ (emitter.core v.t.core).l1 = []) := runs_such (by decide +kernel)
def rdrE : Enc := enc (word 0x3A3 0 (vec 240) (vec 0) 0 0 0)
theorem witness_rdr : (∃ v, Runs (.rdr rdrE) rdrE (live (at_ 0)) v ∧ v.l.hen = false) ∧
    ∃ v, Runs (.rdr rdrE) rdrE ((live (at_ 0)).modLaunch 1 fun l => { l with hen := true }) v ∧ (v.l.hen = true ∧ rdrE.d.num.toNat + 16 ≤ v.size ∧
      ((live (at_ 0)).modLaunch 1 fun l => { l with hen := true }).arriveHold v.f = .free ∧
      (((live (at_ 0)).modLaunch 1 fun l => { l with hen := true }).core v.t.core).l1 = []) :=
  ⟨runs_such (by decide +kernel), runs_such (by decide +kernel)⟩

/-! ### Operations and events of the devices -/

/-- What Heads asks of an operation, and a condition on its team, as one test. -/
def headed (s : State) (q : Nat) (o : EngOp) (P : Team → Bool) : Bool :=
  match s.team? 2 with
  | some t => decide (s.team? t.id = some t ∧ (t.queue q).head? = some o ∧
      (∀ p ∈ t.queues, p.id = o.id ∨ (p.result.isSome = true ∧ p.result = o.result) → p = o) ∧ o.held = none ∧ s.anyLives o.after = false ∧
      s.isOver t = false ∧ (t.bad = [] ∧ (s.core t.core).bad = []) ∧ s.pendingOps o.fid = [] ∧ (∀ f ∈ s.fibres, f.waits ≠ .log) ∧
      (s.fibre? o.fid).all (fun f => !f.Comes) = true) && P t
  | none => false

theorem heads_of {s : State} {q : Nat} {o : EngOp} {P : Team → Bool} (h : headed s q o P = true) : ∃ t, Heads s t q o ∧ P t = true := by
  unfold headed at h
  split at h
  · simp only [Bool.and_eq_true, decide_eq_true_eq] at h
    obtain ⟨⟨a, b, c, d, e, f, g, i, j, k⟩, p⟩ := h
    refine ⟨_, ⟨a, b, c, d, e, f, g, i, j, fun f hf => ?_⟩, p⟩
    simpa [hf] using k
  · contradiction

theorem heads_such {s : State} {q : Nat} {o : EngOp} {P : Team → Prop} [DecidablePred P] (h : headed s q o (fun t => decide (P t)) = true) :
    ∃ t, Heads s t q o ∧ P t :=
  let ⟨t, a, b⟩ := heads_of h
  ⟨t, a, of_decide_eq_true b⟩

/-- A state without lines in an L1, exact sums, lost lines and watches is plain. -/
theorem plain_of {s : State} (hc : ∀ c ∈ s.cores, c.l1 = []) (he : s.exacts = []) (hl : s.pkg.lostLines = []) (hw : s.watches = []) : Plain s := by
  refine ⟨fun c => ?_, he, hl, hw⟩
  unfold State.core
  cases h : s.cores.find? fun x => x.id == c with
  | none => rfl
  | some x => exact hc x (List.mem_of_find?_eq_some h)

/-- The matrix operations at the head of their queue. -/
def mmaOp : EngOp := { pend 9 .mma 2 mmaE [0xC333] with result := some 12 }
theorem witness_matrix_operations :
    (∃ t, Heads (with_ mmaOp (live (at_ 0))) t 2 mmaOp ∧ mmaOp.kind = .mma) ∧
    (∃ t, Heads (with_ (pend 9 .azero 2 azeroE []) (live (at_ 0))) t 2 (pend 9 .azero 2 azeroE []) ∧ azeroE.mod = 1) ∧
    (∃ t, Heads (with_ (pend 9 .aswap 2 (enc (word 0x305 0 (acc 1) (acc 15) 0 0 0)) []) (live (at_ 0))) t 2
      (pend 9 .aswap 2 (enc (word 0x305 0 (acc 1) (acc 15) 0 0 0)) []) ∧ True) ∧
    (∃ t, Heads (with_ (pend 9 .aflag 2 (enc (word 0x308 0 (uni 4) (acc 15) 0 0 0)) []) (live (at_ 0))) t 2
      (pend 9 .aflag 2 (enc (word 0x308 0 (uni 4) (acc 15) 0 0 0)) []) ∧ True) ∧
    ∃ t, Heads (with_ (pend 9 .tcvt 2 (enc (word 0x30B 4 (til 1) (til 2) 0 0 0)) []) (live (at_ 0))) t 2
      (pend 9 .tcvt 2 (enc (word 0x30B 4 (til 1) (til 2) 0 0 0)) []) ∧ True :=
  ⟨heads_such (by decide +kernel), heads_such (by decide +kernel), heads_such (by decide +kernel), heads_such (by decide +kernel),
    heads_such (by decide +kernel)⟩

/-- A copy within the scratchpad, overlapping; one from a buffer; a slice load of its last column. -/
def cpInE : Enc := enc (word 0x340 1 0 0 (imm 64) (imm 0) (imm 32))
def cpIn : EngOp := pend 9 .cp 1 { cpInE with mod := 5 } [2, 2, 16, 0, 64, 1, 0, 0, 0]
theorem witness_copy_within : ∃ t, Heads (with_ cpIn (live (at_ 0))) t 1 cpIn ∧ (cpIn.kind = .cp ∧ cpIn.pos = 0 ∧ cpIn.part = 0 ∧ cpIn.stocked = 0 ∧
    cpIn.begun = false ∧ cpIn.val 4 = 64 ∧ cpIn.val 5 = 1 ∧ copyKind cpIn.enc true = 1 ∧ cpIn.val 0 = t.id ∧
    0 ≤ signed 32 (cpIn.val 2) ∧ signed 32 (cpIn.val 2) + 64 ≤ t.scratch ∧ copyKind cpIn.enc false = 1 ∧ cpIn.val 1 = t.id ∧
    0 ≤ signed 32 (cpIn.val 3) ∧ signed 32 (cpIn.val 3) + 64 ≤ t.scratch) := heads_such (by decide +kernel)

/-- The same with 4 bytes left of 64 from offset 64 on, in stock; and with 3 left, of a copy from a buffer. -/
def cpOut : EngOp := { pend 9 .cp 1 { cpInE with mod := 5 } [2, 2, 64, 0, 64, 1, 0, 0, 0] with begun := true, part := 60, stocked := 4, stock := 5 }
theorem witness_copy_writes : ∃ t, Heads (with_ cpOut (live (at_ 0))) t 1 cpOut ∧ (cpOut.val 0 = t.id ∧ cpOut.part < 64 ∧ cpOut.stocked ≤ 64 - cpOut.part ∧
    signed 32 (cpOut.val 2) + 64 ≤ t.scratch ∧ copyKind cpOut.enc true = 1 ∧ copyKind cpOut.enc false = 1 ∧
    signed 32 (cpOut.val 3) + 64 ≤ signed 32 (cpOut.val 2) ∧ ((signed 32 (cpOut.val 2)).toNat + cpOut.part) % 4 = 0) := heads_such (by decide +kernel)

/-- The record of 4,096 bytes at 0x10100 of stride 64 with every permission. -/
def rec64 : BitVec 256 := BitVec.ofNat 256 (0x10100 + 64 * 2 ^ 64 + 4096 * 2 ^ 96 + (2 ^ 20 + 7 * 2 ^ 22) * 2 ^ 128)

def cpFrom : EngOp := { pend 9 .cp 1 cpInE [2, 2, 16, 128, 64, 1, 0, 0, 0] with recA := rec64 }
def readOf (s : State) (t : Team) (o : EngOp) (va n : Nat) (b : Buf) (l1 : Bool) : Bool :=
  match Eng.read ⟨t, s.ctxOf t, o⟩ s va n b l1 with
  | .ok _ s1 => s1.pendingOps o.fid == []
  | _ => false
theorem read_of {s : State} {t : Team} {o : EngOp} {va n : Nat} {b : Buf} {l1 : Bool} (h : readOf s t o va n b l1 = true) :
    ∃ x s1, Eng.read ⟨t, s.ctxOf t, o⟩ s va n b l1 = .ok x s1 ∧ s1.pendingOps o.fid = [] := by
  unfold readOf at h
  split at h
  · exact ⟨_, _, by assumption, by simpa using h⟩
  · contradiction

theorem witness_copy_from_memory : ∃ t x s1, Heads (with_ cpFrom (live (at_ 0))) t 1 cpFrom ∧ (copyKind cpFrom.enc true = 1 ∧ copyKind cpFrom.enc false = 0 ∧
    cpFrom.stocked = 0 ∧ cpFrom.val 0 = t.id ∧ cpFrom.buf.inb (signed 32 (cpFrom.val 3)) 64 = true ∧ cpFrom.buf.room (signed 32 (cpFrom.val 3)) ≥ 64) ∧
    Eng.read ⟨t, (with_ cpFrom (live (at_ 0))).ctxOf t, cpFrom⟩ (with_ cpFrom (live (at_ 0))) (cpFrom.buf.va (signed 32 (cpFrom.val 3))) 64 cpFrom.buf
      (decide (cpFrom.enc.sc = 0)) = .ok x s1 ∧ s1.pendingOps cpFrom.fid = [] :=
  have ⟨t, h, p, r⟩ := heads_such (s := with_ cpFrom (live (at_ 0))) (q := 1) (o := cpFrom)
    (P := fun t => (copyKind cpFrom.enc true = 1 ∧ copyKind cpFrom.enc false = 0 ∧ cpFrom.stocked = 0 ∧ cpFrom.val 0 = t.id ∧
      cpFrom.buf.inb (signed 32 (cpFrom.val 3)) 64 = true ∧ cpFrom.buf.room (signed 32 (cpFrom.val 3)) ≥ 64) ∧
      readOf (with_ cpFrom (live (at_ 0))) t cpFrom (cpFrom.buf.va (signed 32 (cpFrom.val 3))) 64 cpFrom.buf (decide (cpFrom.enc.sc = 0)) = true)
    (by decide +kernel)
  have ⟨x, s1, e⟩ := read_of r
  ⟨t, x, s1, h, p, e⟩

/-- The last granule of `bld.band` with one granule a column: column 63, from its first word on, or its last word. -/
def bldOp (part : Nat) : EngOp := { pend 9 .bld 3 bldE [0, 0, 0, 0x100] with recA := rec64, pos := 63, part := part }
theorem witness_slice_load (part : Nat) (hp : part ∈ [0, 28]) :
    let o := bldOp part
    let r := o.rows 0 (elemWidth o.enc.lo4) (BldWord.of (o.val 3)).ng
    ∃ t x s1, Heads (with_ o (live (at_ 0))) t 3 o ∧ (o.enc.hi2 = 0 ∧ o.pos < 64 * (BldWord.of (o.val 3)).ng ∧
      (BldWord.of (o.val 3)).g0 + (BldWord.of (o.val 3)).ng ≤ 248 ∧ r.item o.pos = [⟨4032, 32⟩] ∧ r.b.inb 4032 32 = true ∧ r.b.va (4032 + part) % 4 = 0 ∧
      4 ≤ r.b.room (4032 + part)) ∧
      Eng.read ⟨t, (with_ o (live (at_ 0))).ctxOf t, o⟩ (with_ o (live (at_ 0))) (r.b.va (4032 + part)) 4 r.b true = .ok x s1 := by
  intro o r
  have ⟨t, h, p, q⟩ := heads_such (s := with_ o (live (at_ 0))) (q := 3) (o := o)
    (P := fun t => (o.enc.hi2 = 0 ∧ o.pos < 64 * (BldWord.of (o.val 3)).ng ∧
      (BldWord.of (o.val 3)).g0 + (BldWord.of (o.val 3)).ng ≤ 248 ∧ r.item o.pos = [⟨4032, 32⟩] ∧ r.b.inb 4032 32 = true ∧ r.b.va (4032 + part) % 4 = 0 ∧
      4 ≤ r.b.room (4032 + part)) ∧ readOf (with_ o (live (at_ 0))) t o (r.b.va (4032 + part)) 4 r.b true = true)
    (by revert part; decide +kernel)
  have ⟨x, s1, e, _⟩ := read_of q
  exact ⟨t, x, s1, h, p, e⟩

/-- An `am` of two words to core 95 of die 23, whose handler queue has room or holds 64; a `put` of 64 bytes of the scratchpad. -/
def amOp : EngOp := pend 9 .am 5 amE [95 + 23 * 2 ^ 7, 0, 2, 7, 8]
def crowded (s : State) : State :=
  { s with qteams := List.replicate 64 ⟨7, 1, .handler 0, 0, 0, .core 2208, 0, 1, 0, [], 1, none, 0⟩ }
theorem witness_am_performs : ∃ t, Heads (with_ amOp (live (at_ 0))) t 5 amOp ∧ (((with_ amOp (live (at_ 0))).launch? t.launch).isSome = true ∧
    amOp.val 0 / 2 ^ 12 % 2 ^ 7 = (with_ amOp (live (at_ 0))).pkg.pkgNo ∧ ((with_ amOp (live (at_ 0))).core t.core).l1 = [] ∧
    (with_ amOp (live (at_ 0))).handlerRoom ((with_ amOp (live (at_ 0))).deliveryCore (96 * (amOp.val 0 / 2 ^ 7 % 2 ^ 5) + amOp.val 0 % 2 ^ 7)) = true) :=
  heads_such (by decide +kernel)
theorem witness_am_waits : ∃ t, Heads (crowded (with_ amOp (live (at_ 0)))) t 5 amOp ∧
    (crowded (with_ amOp (live (at_ 0)))).handlerRoom ((with_ amOp (live (at_ 0))).deliveryCore (96 * (amOp.val 0 / 2 ^ 7 % 2 ^ 5) + amOp.val 0 % 2 ^ 7)) = false :=
  heads_such (by decide +kernel)

def putOp : EngOp := { pend 9 .put 5 putE [2, 2, 0, 4032, 64, 1, 0, 0, 0, 0, 0] with recD := rec64 }
theorem witness_put_begins : ∃ t, Heads (with_ putOp (live (at_ 0))) t 5 putOp ∧ (putOp.enc.mod.toNat % 2 = 1 ∧ putOp.val 1 = t.id ∧ putOp.val 4 = 64 ∧
    putOp.part = 0 ∧ putOp.stocked = 0 ∧ putOp.begun = false ∧ (Buf.of putOp.recD.toNat).inb (signed 32 (putOp.val 2)) 64 = true ∧
    64 ≤ (Buf.of putOp.recD.toNat).room (signed 32 (putOp.val 2)) ∧ 0 ≤ signed 32 (putOp.val 3) ∧ signed 32 (putOp.val 3) + 64 ≤ t.scratch) :=
  heads_such (by decide +kernel)

/-- The put with its last word, or its last byte, in stock. -/
def puttingOp (k : Nat) : EngOp := { putOp with begun := true, part := 64 - k, stocked := k, stock := 7 }
theorem witness_put_performs (k : Nat) (hk : k ∈ [1, 4]) : ∃ t p s1, Heads (with_ (puttingOp k) (live (at_ 0))) t 5 (puttingOp k) ∧
    ((puttingOp k).part < 64 ∧ (puttingOp k).stocked ≤ 64 - (puttingOp k).part ∧
      (Buf.of putOp.recD.toNat).va (signed 32 (putOp.val 2) + (64 - k : Nat)) < 2 ^ 57) ∧
    (with_ (puttingOp k) (live (at_ 0))).translate t.core ((with_ (puttingOp k) (live (at_ 0))).ctxOf t)
      ((Buf.of putOp.recD.toNat).va (signed 32 (putOp.val 2) + (64 - k : Nat))) .write = (.ok p, s1) ∧ p.pkg = (with_ (puttingOp k) (live (at_ 0))).pkg.pkgNo ∧
      Plain s1 ∧ s1.pendingOps putOp.fid = [] :=
  have own : (placeOf 0 0 (0x10100 + (64 - k))).pkg = (with_ (puttingOp k) (live (at_ 0))).pkg.pkgNo := by revert k; decide +kernel
  have ⟨t, h, c, e, l, x, y, w, p⟩ := heads_such (s := with_ (puttingOp k) (live (at_ 0))) (q := 5) (o := puttingOp k)
    (P := fun t => ((puttingOp k).part < 64 ∧ (puttingOp k).stocked ≤ 64 - (puttingOp k).part ∧
      (Buf.of putOp.recD.toNat).va (signed 32 (putOp.val 2) + (64 - k : Nat)) < 2 ^ 57) ∧
      (let r := (with_ (puttingOp k) (live (at_ 0))).translate t.core ((with_ (puttingOp k) (live (at_ 0))).ctxOf t)
        ((Buf.of putOp.recD.toNat).va (signed 32 (putOp.val 2) + (64 - k : Nat))) .write
      r.1 = .ok (placeOf 0 0 (0x10100 + (64 - k))) ∧ (∀ c ∈ r.2.cores, c.l1 = []) ∧ r.2.exacts = [] ∧ r.2.pkg.lostLines = [] ∧ r.2.watches = [] ∧
        r.2.pendingOps putOp.fid = [])) (by revert k; decide +kernel)
  ⟨t, _, _, h, c, Prod.ext e rfl, own, plain_of l x y w, p⟩

/-- The signal of a `putsig` on the last word of its buffer. -/
def putsigOp : EngOp := { pend 9 .putsig 5 (enc (word 0x382 1 (uni 0) (uni 40) (uni 12) (imm 64) (imm 0))) [2, 2, 0, 0, 64, 1, 0, 0, 0, 4092, 0xFFFFFFFF] with
  recD := rec64, pos := 1 }
theorem witness_putsig_signal : ∃ t p s1, Heads (with_ putsigOp (live (at_ 0))) t 5 putsigOp ∧ putsigOp.kind = .putsig ∧ putsigOp.pos = 1 ∧
    (with_ putsigOp (live (at_ 0))).teams.find? (fun t => t.queues.any fun q => q.id == putsigOp.id) = some t ∧
    (Buf.of putsigOp.recD.toNat).va (putsigOp.val 9 : Nat) < 2 ^ 57 ∧
    (with_ putsigOp (live (at_ 0))).translate t.core ((with_ putsigOp (live (at_ 0))).ctxOf t) ((Buf.of putsigOp.recD.toNat).va (putsigOp.val 9 : Nat)) .atomic =
      (.ok p, s1) ∧ p.pkg = (with_ putsigOp (live (at_ 0))).pkg.pkgNo ∧ Plain s1 ∧ s1.pendingOps putsigOp.fid = [] :=
  have ⟨t, h, c, d, e, l, x, y, w, p⟩ := heads_such (s := with_ putsigOp (live (at_ 0))) (q := 5) (o := putsigOp)
    (P := fun t => (with_ putsigOp (live (at_ 0))).teams.find? (fun t => t.queues.any fun q => q.id == putsigOp.id) = some t ∧
      (Buf.of putsigOp.recD.toNat).va (putsigOp.val 9 : Nat) < 2 ^ 57 ∧
      (let r := (with_ putsigOp (live (at_ 0))).translate t.core ((with_ putsigOp (live (at_ 0))).ctxOf t) ((Buf.of putsigOp.recD.toNat).va (putsigOp.val 9 : Nat)) .atomic
      r.1 = .ok (placeOf 0 0 0x110FC) ∧ (∀ c ∈ r.2.cores, c.l1 = []) ∧ r.2.exacts = [] ∧ r.2.pkg.lostLines = [] ∧ r.2.watches = [] ∧
        r.2.pendingOps putsigOp.fid = [])) (by decide +kernel)
  ⟨t, _, _, h, rfl, rfl, c, d, Prod.ext e rfl, rfl, plain_of l x y w, p⟩

/-- The row of an append for lane 31: from offset 64 to the first row of the list at 0, or dropped. -/
def appOp (idx : Nat) : EngOp := { pend 9 .app 5 appE [idx] with
  recA := rec64, recD := rec64, pos := 1, lanes := 0x80000000, laneVals := [(31, BitVec.ofNat 128 (64 * 2 ^ 64))] }
theorem witness_dropped_row : ∃ t, Heads (with_ (appOp (2 ^ 32 - 1)) (live (at_ 0))) t 5 (appOp (2 ^ 32 - 1)) ∧
    (with_ (appOp (2 ^ 32 - 1)) (live (at_ 0))).teams.find? (fun t => t.queues.any fun q => q.id == (appOp (2 ^ 32 - 1)).id) = some t ∧
      (appOp (2 ^ 32 - 1)).appLanes[0]? = some 31 := heads_such (by decide +kernel)
theorem witness_row_store : ∃ t, Heads (with_ (appOp 0) (live (at_ 0))) t 5 (appOp 0) ∧
    (with_ (appOp 0) (live (at_ 0))).teams.find? (fun t => t.queues.any fun q => q.id == (appOp 0).id) = some t ∧ (appOp 0).appLanes[0]? = some 31 ∧
      ((appOp 0).appAt 31).1 + 64 + 1 * 64 ≤ (appOp 0).appList.extent ∧ 64 ≤ 128 - (appOp 0).appSource.va (((appOp 0).appAt 31).2 : Nat) % 128 ∧
      64 ≤ 128 - (appOp 0).appList.va (((appOp 0).appAt 31).1 + 64 : Nat) % 128 ∧
      (match Eng.read ⟨t, (with_ (appOp 0) (live (at_ 0))).ctxOf t, appOp 0⟩ (with_ (appOp 0) (live (at_ 0)))
          ((appOp 0).appSource.va (((appOp 0).appAt 31).2 : Nat)) 64 (appOp 0).appSource (decide ((appOp 0).enc.sc = 0)) false with
        | .ok x s1 => (match Eng.write ⟨t, (with_ (appOp 0) (live (at_ 0))).ctxOf t, appOp 0⟩ s1
            ((appOp 0).appList.va (((appOp 0).appAt 31).1 + 64 : Nat)) 64 x (appOp 0).appList (decide ((appOp 0).enc.sc = 0)) false with
          | .ok _ _ => true
          | _ => false)
        | _ => false) = true := heads_such (by decide +kernel)

/-- Packets: a reserved type, one for package 3, a write of one flit; a message of one word for an idle core. -/
theorem witness_packets : packetReserved ⟨0, 8, []⟩ = true ∧
    (packetReserved ⟨0, BitVec.ofNat 512 (3 * 2 ^ 12 + 1), []⟩ = false ∧ packetBits ⟨0, BitVec.ofNat 512 (3 * 2 ^ 12 + 1), []⟩ 18 12 ≠ (at_ 0).pkg.pkgNo) ∧
    (let p : Packet := ⟨0, BitVec.ofNat 512 (2 ^ 25 + 1), List.replicate 64 5⟩;
      packetReserved p = false ∧ packetBits p 18 12 = (at_ 0).pkg.pkgNo ∧ packetBits p 109 103 = (at_ 0).pkg.pkgNo ∧ packetBits p 3 0 = 1 ∧ Plain (at_ 0)) ∧
    packetReserved ⟨0, 0, []⟩ = false ∧ packetBits ⟨0, 0, []⟩ 18 12 = (at_ 0).pkg.pkgNo ∧ packetBits ⟨0, 0, []⟩ 109 103 = (at_ 0).pkg.pkgNo ∧
    packetBits ⟨0, 0, []⟩ 3 0 = 0 :=
  ⟨by decide +kernel, ⟨by decide +kernel, by decide +kernel⟩, ⟨by decide +kernel, by decide +kernel, by decide +kernel, by decide +kernel,
    plain_of (s := at_ 0) (by decide +kernel) (by decide +kernel) (by decide +kernel) (by decide +kernel)⟩, by decide +kernel, by decide +kernel,
    by decide +kernel, by decide +kernel⟩
theorem witness_delivery : let x : AmMsg := ⟨9, 2208, 1, 0, [7], 5, 3⟩
    let s := { at_ 0 with msgs := [x] }
    s.msgs.find? (fun y => y.id == x.id) = some x ∧ (s.launch? x.launch).map Launch.outcome = some none ∧
      (s.msgs.find? fun y => y.fibre == x.fibre && y.core == x.core) = some x ∧ s.handlerCount (s.deliveryCore x.core) < 64 ∧ x.payload.length ≤ 16 := by
  decide +kernel

/-! ### Beats and layers -/

/-- A team whose stack store has its next beat, in entry 448 of its tower, in the turn of that entry. -/
def bwstOp : EngOp := pend 9 .bwst 4 bwstE [64]
def beating : State :=
  ((with_ bwstOp (at_ 0)).modTower 0 fun y => { y with slots := [(448, 2)] }).modTeam 2 fun t => { t with nslots := 1, entries := [448] }
theorem witness_beat : ∃ t o b, beating.team? 2 = some t ∧ beating.nextBeat t = some (o, b) ∧ beating.entryTurn 0 448 = true ∧
    SMap.get 0 (beating.tower 0).slots 448 = t.id ∧ t.id ≠ 0 ∧ beating.team? t.id = some t ∧ o.kind = .bwst ∧ (beating.tower 0).beats = [] :=
  ⟨_, _, _, rfl, rfl, rfl, rfl, by decide +kernel, rfl, rfl, rfl⟩

/-- A clean beat of team 2 on its way in tower 0. -/
def sentBeat : Beat := ⟨9, 2, 0, 0, 9, 64, 5, 1, none, some (0, 7), 448, false, 0⟩
def beatSent : State := (at_ 0).modTower 0 fun y => { y with beats := [sentBeat] }
theorem witness_sent_beat : (beatSent.tower 0).beats = [sentBeat] ∧ (∀ n : Nat, n ≠ 0 → (beatSent.tower n).beats = []) ∧ sentBeat.key.isSome = true ∧
    sentBeat.bad = false ∧ sentBeat.gran = none ∧ ∃ t, beatSent.team? sentBeat.team = some t := by
  refine ⟨by decide +kernel, fun n h => ?_, rfl, rfl, rfl, _, rfl⟩
  have h : ((0 : Nat) == n) = false := by simpa using fun e => h e.symm
  obtain ⟨y, e, i⟩ : ∃ y, beatSent.towers = [y] ∧ y.id = 0 := ⟨_, rfl, rfl⟩
  simp only [State.tower, e, List.find?, i, h, Option.getD]
  rfl
theorem witness_beat_error : ∃ rest o b, beating.entriesNow 0 = 448 :: rest ∧ beating.carries 0 448 = some (.beat o b) ∧ (beating.tower 0).beats = [] :=
  ⟨_, _, _, rfl, rfl, rfl⟩
theorem witness_no_beat : (at_ 0).carries 0 448 = none := by decide +kernel
theorem witness_channel_test : ∃ b ∈ (((at_ 0).modTower 0 fun y =>
      { y with beats := [⟨9, 2, 0, 0, 9, 64, 5, 1, none, some (0, 7), 448, true, 8⟩] }).tower 0).beats, b.bad = true ∧ 8 ≤ b.resends := by
  decide +kernel
theorem witness_layers : (∀ t ∈ (at_ 0).teams, dieOf t.core ≠ 23) ∧ (∃ t ∈ (at_ 0).teams, dieOf t.core = 0) ∧
    ({ State.reset with layers := [{ Layer.reset 23 with asleep := true }] }.layer 23).asleep = true := by decide +kernel

/-! ### Collectives -/

/-- A collective at the head of the coll queue: a descriptor beyond the extent, one within it; and a member of it. -/
def collOp (off : Nat) : EngOp := { pend 9 .coll 6 collE [off] with recA := rec64 }
theorem witness_collective_out_of_bounds : ∃ t d s1, Heads (with_ (collOp 4032) (live (at_ 0))) t 6 (collOp 4032) ∧
    ((collOp 4032).buf.extent < (collOp 4032).val 0 + 128 ∧ (collOp 4032).buf.va ((collOp 4032).val 0 : Nat) % 64 = 0) ∧
    Eng.read ⟨t, (with_ (collOp 4032) (live (at_ 0))).ctxOf t, collOp 4032⟩ (with_ (collOp 4032) (live (at_ 0)))
      ((collOp 4032).buf.va ((collOp 4032).val 0 : Nat)) 64 (collOp 4032).buf (decide ((collOp 4032).enc.sc = 0)) = .ok d s1 :=
  have ⟨t, h, p, r⟩ := heads_such (s := with_ (collOp 4032) (live (at_ 0))) (q := 6) (o := collOp 4032)
    (P := fun t => ((collOp 4032).buf.extent < (collOp 4032).val 0 + 128 ∧ (collOp 4032).buf.va ((collOp 4032).val 0 : Nat) % 64 = 0) ∧
      readOf (with_ (collOp 4032) (live (at_ 0))) t (collOp 4032) ((collOp 4032).buf.va ((collOp 4032).val 0 : Nat)) 64 (collOp 4032).buf
        (decide ((collOp 4032).enc.sc = 0)) = true) (by decide +kernel)
  have ⟨x, s1, e, _⟩ := read_of r
  ⟨t, x, s1, h, p, e⟩
theorem witness_collective_starts : ∃ t d s1, Heads (with_ (collOp 128) (live (at_ 0))) t 6 (collOp 128) ∧
    ((collOp 128).val 0 + 128 ≤ (collOp 128).buf.extent ∧ (collOp 128).buf.va ((collOp 128).val 0 : Nat) % 128 = 0) ∧
    Eng.read ⟨t, (with_ (collOp 128) (live (at_ 0))).ctxOf t, collOp 128⟩ (with_ (collOp 128) (live (at_ 0)))
      ((collOp 128).buf.va ((collOp 128).val 0 : Nat)) 128 (collOp 128).buf (decide ((collOp 128).enc.sc = 0)) = .ok d s1 :=
  have ⟨t, h, p, r⟩ := heads_such (s := with_ (collOp 128) (live (at_ 0))) (q := 6) (o := collOp 128)
    (P := fun t => ((collOp 128).val 0 + 128 ≤ (collOp 128).buf.extent ∧ (collOp 128).buf.va ((collOp 128).val 0 : Nat) % 128 = 0) ∧
      readOf (with_ (collOp 128) (live (at_ 0))) t (collOp 128) ((collOp 128).buf.va ((collOp 128).val 0 : Nat)) 128 (collOp 128).buf
        (decide ((collOp 128).enc.sc = 0)) = true) (by decide +kernel)
  have ⟨x, s1, e, _⟩ := read_of r
  ⟨t, x, s1, h, p, e⟩

/-- A contribution of rank 0 to the Ox of tower 0, for a hop of this package with K as given. -/
def packet (id entry rank hop : Nat) : CollPacket := ⟨id, 5, 0, rank, rank, 4, 0, 0, [entry], 1, false, false, [7], hop, 0, 4 * id, 0⟩
def carrying (ps : List CollPacket) (rs : List CollRecord) : State := { at_ 0 with packets := ps, records := rs, nextId := 20 }
theorem witness_packets_at_hops :
    (carrying [packet 9 1 0 77] []).ownHop 77 = false ∧
    ((carrying [packet 9 1 0 0] []).ownHop 0 = true ∧ (carrying [packet 9 1 0 0] []).hopRoom (packet 9 1 0 0) = true ∧
      (carrying [packet 9 1 0 0] []).combination 0 5 0 = [] ∧ (carrying [packet 9 1 0 0] []).packets.find? (fun q => q.id == 9) = some (packet 9 1 0 0)) ∧
    (carrying [packet 9 2 0 0] []).hopRoom (packet 9 2 0 0) = true ∧ 1 < 2 % 2 ^ 8 ∧
    (let s := carrying [packet 9 2 0 0] ((List.range 256).map fun k => ⟨30 + k, 0, k, 9, [], 0⟩);
      s.ownHop 0 = true ∧ s.hopRoom (packet 9 2 0 0) = false) ∧
    (let c := { packet 10 2 0 0 with arrived := 1 };
      let s := carrying [c, packet 9 2 1 0] [];
      s.ownHop 0 = true ∧ s.hopRoom (packet 9 2 1 0) = true ∧ s.combination 0 5 0 = [c] ∧ c.rlo < (packet 9 2 1 0).rlo ∧ c.kind ≠ 2) ∧
    (let p := { packet 9 1 0 0 with ret := true, input := 1 };
      let r : CollRecord := ⟨15, 0, 5, 0, [(44, true), (48, false)], 0⟩;
      let s := carrying [p] [r];
      s.packets.find? (fun q => q.id == p.id) = some p ∧ p.input % 4 = 1 ∧ p.id < s.nextId ∧
        s.records.find? (fun r => r.hop == p.input / 4 && r.collId == p.collId && r.chunk == p.chunk) = some r) := by decide +kernel

/-- A member whose one chunk has returned, or not; a record of an Ox that has waited 2^30 cycles, and one that has not. -/
def member (low : Nat) : Member := ⟨7, 2, 9, 0, 0, 1, 1, 0, 0, 5, 3, 0, 0, [], low, [], false, false, false, 0⟩
def collecting (low : Nat) : State := { with_ { collOp 128 with pos := 2 } (live (at_ 0)) with members := [member low] }
theorem no_lines {s : State} (hc : ∀ c ∈ s.cores, c.l1 = []) (n : Nat) : (s.core n).l1 = [] := by
  unfold State.core
  cases h : s.cores.find? fun x => x.id == n with
  | none => rfl
  | some x => exact hc x (List.mem_of_find?_eq_some h)
theorem witness_collective_completes : ∃ t x s1, Heads (collecting 1) t 6 { collOp 128 with pos := 2 } ∧
    ((collecting 1).member? 7 = some (member 1) ∧ (member 1).complete = true ∧ (member 1).sig = false ∧ (member 1).team = t.id) ∧
    Eng.write ⟨t, (collecting 1).ctxOf t, { collOp 128 with pos := 2 }⟩ (collecting 1) ((collOp 128).buf.va ((collOp 128).val 0 : Nat)) 4 1
      (collOp 128).buf (decide ((collOp 128).enc.sc = 0)) = .ok x s1 ∧ s1.pendingOps 3 = [] ∧
      ∀ n : Nat, ((collecting 1).core n).l1 = [] ∧ (s1.core n).l1 = [] :=
  have ⟨t, h, p, r⟩ := heads_such (s := collecting 1) (q := 6) (o := { collOp 128 with pos := 2 })
    (P := fun t => ((collecting 1).member? 7 = some (member 1) ∧ (member 1).complete = true ∧ (member 1).sig = false ∧ (member 1).team = t.id) ∧
      (match Eng.write ⟨t, (collecting 1).ctxOf t, { collOp 128 with pos := 2 }⟩ (collecting 1) ((collOp 128).buf.va ((collOp 128).val 0 : Nat)) 4 1
          (collOp 128).buf (decide ((collOp 128).enc.sc = 0)) with
        | .ok _ s1 => s1.pendingOps 3 == [] && decide (∀ c ∈ s1.cores, c.l1 = [])
        | _ => false) = true) (by decide +kernel)
  have ⟨x, s1, e, q, l⟩ : ∃ x s1, Eng.write ⟨t, (collecting 1).ctxOf t, { collOp 128 with pos := 2 }⟩ (collecting 1)
      ((collOp 128).buf.va ((collOp 128).val 0 : Nat)) 4 1 (collOp 128).buf (decide ((collOp 128).enc.sc = 0)) = .ok x s1 ∧ s1.pendingOps 3 = [] ∧
        ∀ c ∈ s1.cores, c.l1 = [] := by
    split at r
    · simp only [Bool.and_eq_true, decide_eq_true_eq, beq_iff_eq] at r
      exact ⟨_, _, by assumption, r.1, r.2⟩
    · contradiction
  ⟨t, x, s1, h, p, e, q, fun n => ⟨no_lines (by decide +kernel) n, no_lines l n⟩⟩
theorem witness_collective_times_out : ((collecting 0).member? 7 = some (member 0) ∧ (member 0).complete = false ∧
      (collecting 0).now < (member 0).started + (member 0).tmo * 1024) ∧
    ({ collecting 0 with now := 3072 }.member? 7 = some (member 0) ∧ (member 0).started + (member 0).tmo * 1024 ≤ { collecting 0 with now := 3072 }.now) := by
  decide +kernel
theorem witness_record_times_out : let r : CollRecord := ⟨15, 0, 5, 0, [(44, true)], 3⟩
    ∀ s, s = { carrying [] [r] with now := 3 + 2 ^ 30 } → s.records.find? (fun x => x.id == r.id) = some r ∧ (∀ x ∈ s.records, x.id = r.id → x = r) ∧
      (∀ p ∈ s.packets, p.id ≠ r.id) ∧ r.hop ≠ 2 ^ 20 ∧ r.since + 2 ^ 30 ≤ s.now ∧ Plain s ∧ s.ringRoom := by
  rintro r s rfl
  exact ⟨by decide +kernel, by decide +kernel, by decide +kernel, by decide +kernel, by decide +kernel,
    plain_of (by decide +kernel) (by decide +kernel) (by decide +kernel) (by decide +kernel), by decide +kernel⟩

/-! ### Groups, nodes and tasks -/

/-- A deposit for key 5 with n records of that key in the Hen; a launch whose last lanes have gone. -/
def henRec : HenRec := ⟨1, 5, List.replicate 16 3⟩
def hens (n : Nat) : State := (at_ 0).modTower 0 fun y => { y with hen := List.replicate n henRec, deposits := [henRec] }
theorem witness_hen :
    ((at_ 0).tower 0).deposits = [] ∧
    (∀ n ∈ [0, 30, 31], ((hens n).tower 0).deposits = [henRec] ∧ ((hens n).tower 0).hen.length < 8192 ∧
      (((hens n).tower 0).hen.filter fun x => decide (x.key.toNat = henRec.key.toNat) && x.launch == henRec.launch).length = n ∧
      ((hens n).tower 0).openKeys.length < 1024 ∧ ((hens n).launch? henRec.launch).isSome = true) ∧
    (∃ l, (hens 5).launch? 1 = some l ∧ (hens 5).flushable 0 l = false) ∧
    ∃ l, ({ (at_ 0).modTower 0 fun y => { y with hen := [henRec] } with fibres := [], teams := [] } : State).launch? 1 = some l ∧
      ({ (at_ 0).modTower 0 fun y => { y with hen := [henRec] } with fibres := [], teams := [] } : State).flushable 0 l = true :=
  ⟨by decide +kernel, by decide +kernel, ⟨_, rfl, by decide +kernel⟩, ⟨_, rfl, by decide +kernel⟩⟩

/-- A node with n records in its batch and one on its way; its timer due or not. -/
def node (n : Nat) (timer : Option Nat) (inc : List (List Word)) : State :=
  (at_ 0).modLaunch 1 fun l => { l with kind := 2, batch := ⟨List.replicate n [1, 2], timer, inc⟩ }
theorem witness_node :
    (∃ l, (node 0 none []).launch? 1 = some l ∧ l.batch.incoming = [] ∧ (node 0 none []).timerDue l = false) ∧
    (∃ l, (node 30 (some 9) [[3, 4]]).launch? 1 = some l ∧ l.batch.incoming = [3, 4] :: [] ∧ l.batch.recs.length < 31) ∧
    (∃ l, (node 31 (some 9) [[3, 4]]).launch? 1 = some l ∧ l.batch.incoming = [3, 4] :: [] ∧ l.batch.recs.length = 31 ∧
      (node 31 (some 9) [[3, 4]]).batchesWaiting 1 < 64) ∧
    64 ≤ ({ node 31 (some 9) [[3, 4]] with qteams := List.replicate 64 ⟨7, 1, .node, 0, 0, .pkg, 0, 1, 0, [], 1, none, 0⟩ } : State).batchesWaiting 1 ∧
    ∃ l, (node 1 (some 0) []).launch? 1 = some l ∧ (node 1 (some 0) []).timerDue l = true :=
  ⟨⟨_, rfl, rfl, by decide +kernel⟩, ⟨_, rfl, rfl, by decide +kernel⟩, ⟨_, rfl, rfl, by decide +kernel, by decide +kernel⟩, by decide +kernel,
    ⟨_, rfl, by decide +kernel⟩⟩

/-- A Ready task without ranges; a team of a Placed task all whose fibres have arrived at its commit barrier. -/
def task (st : TaskState) : Task := ⟨0, 1, 0, 0x10200, false, 5, [], [], st, [], none⟩
def tasked (st : TaskState) : State :=
  { ((at_ 0).modLaunch 1 fun l => { l with kind := 1 }).modTeam 2 fun t => { t with origin := .task 0, commit := ⟨0, [3]⟩ } with tasks := [task st] }
theorem witness_task_starts : ∃ l vs, (tasked .ready).task? 0 = some (task .ready) ∧ (tasked .ready).launch? 1 = some l ∧ l.outcome = none ∧
    (tasked .ready).taskStarts (task .ready) = true ∧ (tasked .ready).supply l (task .ready) = some vs := ⟨_, _, rfl, rfl, rfl, by decide +kernel, rfl⟩
theorem witness_task_waits : (tasked .waiting).task? 0 = some (task .waiting) ∧ (tasked .waiting).taskStarts (task .waiting) = false := by decide +kernel
theorem witness_task_commits : ∃ x l, (tasked .running).team? 2 = some x ∧ (tasked .running).commits x = true ∧
    (tasked .running).taskOf x = some (task .running) ∧ (tasked .running).launch? x.launch = some l ∧
    ((tasked .running).tryLines l.ctx .write []).1 = .ok := ⟨_, _, rfl, by decide +kernel, rfl, rfl, rfl⟩
theorem witness_no_commit : ∃ x, (at_ 0).team? 2 = some x ∧ (at_ 0).commits x = false := ⟨_, rfl, rfl⟩

/-! ### Queued teams -/

/-- A team of a node launch that waits at a level. -/
def qt (level : Level) : QTeam := ⟨9, 1, .node, 0, 0, level, 0, 1, 0, [], 1, none, 0⟩
def queued (level : Level) : State := { at_ 0 with qteams := [qt level] }
theorem theQTeam (level : Level) : (queued level).TheQTeam (qt level) := ⟨rfl, fun r h _ => by simpa [queued] using h⟩
/-- The same where no core has room. -/
def full (level : Level) : State := { queued level with teams := [], towers := (List.range 4).map fun n => { Tower.reset n with stopped := true } }

theorem witness_descent : (∃ l, (at_ 0).launch? 1 = some l ∧ (at_ 0).drawable l = false) ∧
    (∃ l, ((at_ 0).modLaunch 1 fun l => { l with nTeams := 2 }).launch? 1 = some l ∧ ((at_ 0).modLaunch 1 fun l => { l with nTeams := 2 }).drawable l = true ∧
      (l.kernelAt l.kernel).clusterW * (l.kernelAt l.kernel).clusterH = 0) ∧
    ((queued (.tower 0)).coresFor 5 ((queued (.tower 0)).kernelOf (qt (.tower 0))).demand ≠ []) ∧
    (queued (.tower 0)).dieQueued 0 = false ∧
    (∀ i, i < 6 → (full (.tower 0)).coresFor i ((full (.tower 0)).kernelOf (qt (.tower 0))).demand = []) ∧
    (let s := { full (.tower 0) with qteams := [qt (.tower 0), { qt (.die 0) with id := 10 }] };
      (∀ i, i < 6 → s.coresFor i (s.kernelOf (qt (.tower 0))).demand = []) ∧ ∃ r ∈ s.qteams, r.level = .die 0) ∧
    (queued (.die 23)).coresFor 23 ((queued (.die 23)).kernelOf (qt (.die 23))).demand ≠ [] :=
  ⟨⟨_, rfl, rfl⟩, ⟨_, rfl, by decide +kernel, by decide +kernel⟩, by decide +kernel, by decide +kernel, by decide +kernel, by decide +kernel,
    by decide +kernel⟩

theorem witness_admission : ∃ l, (queued (.core 1)).launch? 1 = some l ∧ (qt (.core 1)).Single l ∧ (∀ t ∈ (queued (.core 1)).teams, t.id ≠ 9) ∧
    (∀ f ∈ (queued (.core 1)).fibres, f.team ≠ 9) ∧ (queued (.core 1)).admissible (qt (.core 1)) = true ∧
    (full (.core 1)).admissible (qt (.core 1)) = false :=
  ⟨_, rfl, ⟨by decide, rfl, .inr (by decide)⟩, by decide +kernel, by decide +kernel, by decide +kernel, by decide +kernel⟩

/-- A team of another die, in a launch that is not concurrent. -/
def stealable : State := (queued (.die 5)).modLaunch 1 fun l => { l with cls := 1 }
theorem witness_steal : ∃ l, stealable.launch? 1 = some l ∧ (qt (.die 5)).Single l ∧ stealable.canSteal (qt (.die 5)) 7 = true ∧
    stealable.canSteal (qt (.die 5)) 600 = false :=
  ⟨_, rfl, ⟨by decide, rfl, .inr (by decide)⟩, by decide +kernel, by decide +kernel⟩

/-! ### A page table -/

/-- Context 0 with a leaf of 1 GiB at 0 that permits every access: root, two tables and the leaf. -/
def tables : List Host.Cell :=
  Memory.writeN (Memory.writeN (Memory.writeN (Memory.writeN [] (placeOf 0 0 0).key 8 0x1000) (placeOf 0 0 0x1000).key 8 0x2001)
    (placeOf 0 0 0x2000).key 8 0x3001) (placeOf 0 0 0x3000).key 8 0x3F
def mapped : State := { at_ 0 with mem := tables }

/-- A queued team of the grid whose anchor is homed on this package, or on package 1 of its pool. -/
def anchored (level : Level) (leaf : Nat) : State :=
  { queued level with
    qteams := [{ qt level with origin := .grid }], mem := Memory.writeN tables (placeOf 0 0 0x3000).key 8 leaf
    pkg := { State.reset.pkg with pool := [0, 1] } }
theorem witness_homes : (∀ x ∈ [(0x3F, 0), (0x3F + 2 ^ 39, 1)], ∀ level ∈ [Level.pkg, .tray],
    let s := anchored level x.1
    ((s.launch? 1).map fun l => decide (l.field 0 4 / 2 ^ 6 % 4 = 0) && match (s.translateNoCache l.ctx (l.field 0x40 8 % 2 ^ 57) .read).1 with
      | .ok p => p.pkg == x.2
      | _ => false) = some true) ∧ 1 ∈ (anchored .pkg 0).pkg.pool := by decide +kernel

theorem readN_congr {m m' : List Host.Cell} : ∀ {n k : Nat}, (∀ i, i < n → Memory.read m' (k + i) = Memory.read m (k + i)) →
    Memory.readN m' k n = Memory.readN m k n
  | 0, _, _ => rfl
  | n + 1, k, h => by
    have h0 := h 0 (by omega)
    have h1 : Memory.readN m' (k + 1) n = Memory.readN m (k + 1) n := readN_congr fun i hi => by
      rw [show k + 1 + i = k + (i + 1) by omega]
      exact h (i + 1) (by omega)
    simp only [Nat.add_zero] at h0
    simp only [Memory.readN, h0, h1]

/-- What a walk of the table meets, whatever else memory holds. -/
theorem maps_of {key va n : Nat} (hk : ∀ a ∈ [0, 0x1000, 0x2000, 0x3000], (placeOf 0 0 a).key + 8 ≤ key ∨ key + n ≤ (placeOf 0 0 a).key)
    (h : ∀ i, i < n → levelIndex 4 (va + i) = 0 ∧ levelIndex 3 (va + i) = 0 ∧ levelIndex 2 (va + i) = 0 ∧ (leafPlace 2 0x3F (va + i)).key = key + i)
    {s : State} (hm : s.mem = tables) (hp : s.pkg.pool = (at_ 0).pkg.pool) (p : Perm) : s.Maps 0 va n key p := by
  intro s' pool ex agree i hi
  have R : ∀ a ∈ [0, 0x1000, 0x2000, 0x3000], s'.physRead a 8 = (Memory.readN tables (placeOf 0 0 a).key 8, s') := fun a ha => by
    have hka := hk a ha
    rw [State.physRead, State.homeRead, State.materialise_none _ _ _ ex, ← hm]
    exact Prod.ext (readN_congr fun j hj => agree _ (by omega)) rfl
  have I : ∀ a ∈ [0x1000, 0x2000, 0x3000, 0], s'.inPool a = true := fun a ha => by
    have : s'.inPool a = (at_ 0).inPool a := by simp only [State.inPool, pool, hp]
    rw [this]; clear this; revert a; decide +kernel
  obtain ⟨h4, h3, h2, hk⟩ := h i hi
  have e0 : Memory.readN tables (placeOf 0 0 0).key 8 = 0x1000 := by decide +kernel
  have e1 : Memory.readN tables (placeOf 0 0 0x1000).key 8 = 0x2001 := by decide +kernel
  have e2 : Memory.readN tables (placeOf 0 0 0x2000).key 8 = 0x3001 := by decide +kernel
  have e3 : Memory.readN tables (placeOf 0 0 0x3000).key 8 = 0x3F := by decide +kernel
  have W : s'.walk 0 (va + i) = (.leaf 2 0x3F, s') := by
    simp only [State.walk, R 0 (by simp), e0]
    rw [State.walkFrom, I 0x1000 (by simp)]
    simp only [h4, Nat.mul_zero, Nat.add_zero, R 0x1000 (by simp), e1]
    rw [if_neg (by decide), if_neg (by decide), if_neg (by decide), if_neg (by decide), show entryAddr 0x2001 = 0x2000 by decide]
    rw [State.walkFrom, I 0x2000 (by simp)]
    simp only [h3, Nat.mul_zero, Nat.add_zero, R 0x2000 (by simp), e2]
    rw [if_neg (by decide), if_neg (by decide), if_neg (by decide), if_neg (by decide), show entryAddr 0x3001 = 0x3000 by decide]
    rw [State.walkFrom, I 0x3000 (by simp)]
    simp only [h2, Nat.mul_zero, Nat.add_zero, R 0x3000 (by simp), e3]
    rw [if_neg (by decide), if_neg (by decide), if_neg (by decide), if_pos (by decide), show entryAddr 0x3F = 0 by decide, I 0 (by simp), if_neg (by decide),
      if_neg (by decide)]
  refine ⟨leafPlace 2 0x3F (va + i), ?_, hk⟩
  rw [State.translateNoCache, W]
  cases p <;> rfl

/-- Eight bytes at an offset of a context line of the record at 0x20000. -/
theorem maps8 {s : State} (hm : s.mem = tables) (hp : s.pkg.pool = (at_ 0).pkg.pool) (p : Perm) :
    s.Maps 0 0x200F8 8 (placeOf 0 0 0x200F8).key p :=
  maps_of (by decide +kernel) (by decide +kernel) hm hp p

/-! ### The end of teams and launches -/

/-- A team whose one fibre has ended; a launch whose teams have all ended, and one that has waited for 2^36 cycles. -/
def overTeam : State := (at_ 0).modFibre 3 fun f => { f with run := .ended }
theorem witness_team_end : ∃ t l, overTeam.team? 2 = some t ∧ overTeam.launch? t.launch = some l ∧ overTeam.teamOver t = true ∧
    ∃ t l, (at_ 0).team? 2 = some t ∧ (at_ 0).launch? t.launch = some l ∧ (at_ 0).teamOver t = false :=
  ⟨_, _, rfl, rfl, by decide +kernel, _, _, rfl, rfl, by decide +kernel⟩
def complete : State := { mapped.modLaunch 1 fun l => { l with recVa := 0x20000, ended := 1 } with teams := [], fibres := [] }
theorem witness_launch_completes : ∃ l, complete.launch? 1 = some l ∧ complete.completion l = some (1, 0) ∧ Plain complete ∧
    complete.Maps l.qctx (l.recVa + 0xF8) 8 (placeOf 0 0 0x200F8).key .write :=
  have ⟨l, h, c, a, b⟩ : ∃ l, complete.launch? 1 = some l ∧ complete.completion l = some (1, 0) ∧ l.qctx = 0 ∧ l.recVa = 0x20000 :=
    ⟨_, rfl, by decide +kernel, rfl, rfl⟩
  ⟨l, h, c, plain_of (by decide +kernel) rfl rfl rfl, by rw [a, b]; exact maps8 (s := complete) rfl rfl _⟩
theorem witness_watchdog : ∃ l, ({ at_ 0 with now := 2 ^ 36 } : State).launch? 1 = some l ∧ l.watchdog + 2 ^ 36 ≤ 2 ^ 36 ∧ l.outcome = none ∧ l.state = .running ∧
    Plain { at_ 0 with now := 2 ^ 36 } ∧ ({ at_ 0 with now := 2 ^ 36 } : State).ringRoom ∧ (at_ 0).now < l.watchdog + 2 ^ 36 ∧ (at_ 0).completion l = none :=
  ⟨_, rfl, by decide +kernel, rfl, rfl, plain_of (by decide +kernel) rfl rfl rfl, by decide +kernel, by decide +kernel, by decide +kernel⟩

/-! ### Queues -/

/-- Values of some bytes each at addresses of context 0. -/
def put_ (m : List Host.Cell) (vs : List (Nat × Nat × Nat)) : List Host.Cell :=
  vs.foldl (fun m v => Memory.writeN m (placeOf 0 0 v.1).key v.2.1 v.2.2) m

/-- A Mapped queue 7 whose next command lies at 0x40000. -/
def uq : UQueue :=
  { id := 7, qcb := 0x50000, ctx := 0, rbase := 0x40000, log2n := 4, rdptr := 0, wrptr := 1, prio := 3, eprio := 3, state := .mapped, slot := 63, part := 0,
    lsig := 0, psince := 0, dbell := 0x60000, bell := some (placeOf 0 0 0x60000).key, rung := false, idleSince := none, watching := false, saving := false, stoppedBy := 0 }

/-- The package up, with memory behind context 0 and one queue. -/
def served (q : UQueue) (vs : List (Nat × Nat × Nat)) : State :=
  { State.reset with mem := put_ tables vs, queues := [q], nextId := 100, pkg := { State.reset.pkg with boot := .up, acceptDone := true } }

/-- A command: type, address, value. -/
def commanded (type addr value : Nat) : State := served uq [(0x40000, 32, type + addr * 2 ^ 64 + value * 2 ^ 128)]

/-- What NextCommand asks, as one test, with a condition. -/
def commandMet (s : State) (q : UQueue) (type c : Nat) (P : Prop) [Decidable P] : Bool :=
  decide (s.queue? q.id = some q ∧ (∀ x ∈ s.queues, x.id = q.id → x = q) ∧ s.frontQueue = some q ∧ s.command q = some c ∧ cmdType c = type ∧ cmdError c = 0 ∧
    (∀ c ∈ s.cores, c.l1 = []) ∧ s.exacts = [] ∧ s.pkg.lostLines = [] ∧ s.watches = [] ∧ s.tags = []) && decide P
theorem next_of {s : State} {q : UQueue} {type c : Nat} {P : Prop} [Decidable P] (h : commandMet s q type c P = true) : NextCommand s q type c ∧ P := by
  simp only [commandMet, Bool.and_eq_true, decide_eq_true_eq] at h
  obtain ⟨⟨a, b, d, e, f, g, i, j, k, l, m⟩, p⟩ := h
  exact ⟨⟨⟨a, b⟩, d, e, f, g, plain_of i j k l, m⟩, p⟩

/-- The number of a command. -/
def cmd (type addr value : Nat) : Nat := type + addr * 2 ^ 64 + value * 2 ^ 128

/-- Kicks: of a Mapped queue, of an Unmapped one with and without a free slot; nothing to take. -/
def kicked (st : QState) (limit : Nat) : State :=
  let s := served { uq with state := st, rung := true, wrptr := 0 } [(0x60000, 4, 16)]
  { s with pkg := { s.pkg with plimits := [(0, limit)] } }
theorem witness_kick : ∀ st ∈ [QState.mapped, .unmapped, .pending], ∀ limit ∈ [1, 64], let q := { uq with state := st, rung := true, wrptr := 0 }
    (kicked st limit).TheQueue q ∧ (kicked st limit).kickNext q = true ∧ (kicked st limit).doorbell q = some 16 ∧ (kicked st limit).tags = [] ∧
      (BitVec.ofNat 32 16 - q.rdptr).toNat ≤ 2 ^ q.log2n ∧ Plain (kicked st limit) := by
  intro st hs limit hl
  refine ⟨⟨rfl, fun x h _ => by simpa [kicked, served] using h⟩, ?_, ?_, rfl, (by decide : (BitVec.ofNat 32 16 - 0).toNat ≤ 2 ^ 4), plain_of (by simp [kicked, served, State.reset]) rfl rfl rfl⟩
  · revert limit st; decide +kernel
  · revert limit st; decide +kernel
/-- Every slot held by queues of partition 1. -/
def slotsHeld : State :=
  let s := kicked .unmapped 64;
  { s with queues := s.queues ++ (List.range 64).map fun n => { uq with id := 100 + n, part := 1, slot := n } }
theorem witness_kick_slots : (kicked .unmapped 64).freeSlot 0 = some 0 ∧ slotsHeld.freeSlot 0 = none ∧
    (∀ x ∈ slotsHeld.queues, x.state = .mapped → x.part ≠ 0) ∧ (served uq []).kickNext uq = false := by decide +kernel
theorem witness_too_many_entries : let s := served { uq with rung := true } [(0x60000, 4, 17)]
    s.kickNext { uq with rung := true } = true ∧ s.doorbell { uq with rung := true } = some 17 ∧ 2 ^ uq.log2n < (BitVec.ofNat 32 17 - uq.rdptr).toNat ∧ s.ringRoom := by
  decide +kernel
theorem witness_idle_save_age :
    (let q := { uq with rdptr := 1, idleSince := some 0 };
      let s := { served q [] with now := 2 ^ 18 };
      s.idleDue q = true ∧ { s with now := 2 ^ 18 - 1 }.idleDue q = false) ∧
    (let q := { uq with rdptr := 1, saving := true };
      (served q []).saveReady q = true ∧ q.wrptr = q.rdptr) ∧
    (let q := { uq with state := .pending, prio := 2, eprio := 2 };
      { served q [] with now := 2 ^ 17 }.ageingDue q = true ∧ (served q []).ageingDue q = false) ∧ (served uq []).saveReady uq = false := by decide +kernel

/-- What the parser answers to the record at 0x20000: accepted with so many teams, or refused with a code. -/
def answer (s : State) : Option (Bool × Nat) :=
  (s.virtRead 0 0x20000 0xF8).1.bind fun v => match { s with nextId := s.nextId + 1 }.accept s.nextId 7 0x20000 0 (toLe 0xF8 v) with
    | .ok l => some (true, l.nTeams)
    | .error code => some (false, code)

/-- LAUNCH of an accepted record, of one that is refused for its class, of a misaligned one. -/
theorem witness_launch_accepted : NextCommand (commanded 1 0x20000 0) uq 1 (cmd 1 0x20000 0) ∧ cmdAddr (cmd 1 0x20000 0) % 256 = 0 :=
  next_of (by decide +kernel)
/-- The parser refuses a record of zeros: its grid has no team. -/
theorem witness_launch_refused : answer (commanded 1 0x20000 0) = some (false, 0x103) := by decide +kernel
theorem witness_launch_misaligned : NextCommand (commanded 1 0x20080 0) uq 1 (cmd 1 0x20080 0) ∧ cmdAddr (cmd 1 0x20080 0) % 256 ≠ 0 := next_of (by decide +kernel)

/-- BARRIER; SIGNAL of an aligned word, mapped, and of another; WAIT that is met, that waits, that is misaligned; CLOSE with and without a launch. -/
theorem witness_commands :
    (NextCommand (commanded 2 0 0) uq 2 (cmd 2 0 0) ∧ ∀ l ∈ (commanded 2 0 0).launches, l.queue ≠ uq.id) ∧
    (NextCommand (commanded 3 0x70008 5) uq 3 (cmd 3 0x70008 5) ∧ cmdAddr (cmd 3 0x70008 5) % 8 = 0) ∧
    (NextCommand (commanded 3 0x70001 5) uq 3 (cmd 3 0x70001 5) ∧ cmdAddr (cmd 3 0x70001 5) % 8 ≠ 0) ∧
    (NextCommand (commanded 4 0x70008 0) uq 4 (cmd 4 0x70008 0) ∧ ((commanded 4 0x70008 0).virtRead 0 0x70008 8).1 = some 0) ∧
    (NextCommand (commanded 4 0x70008 5) uq 4 (cmd 4 0x70008 5) ∧ ((commanded 4 0x70008 5).translateNoCache 0 0x70008 .read).1 = .ok (placeOf 0 0 0x70008)) ∧
    (NextCommand (commanded 4 0x70004 5) uq 4 (cmd 4 0x70004 5) ∧ cmdAddr (cmd 4 0x70004 5) % 8 ≠ 0) ∧
    (NextCommand (commanded 5 0x20000 0) uq 5 (cmd 5 0x20000 0) ∧
      ((commanded 5 0x20000 0).launches.find? fun l => l.recVa == cmdAddr (cmd 5 0x20000 0) && l.qctx == uq.ctx && l.isOpen && decide (l.outcome = none)) = none) :=
  ⟨next_of (by decide +kernel), next_of (by decide +kernel), next_of (by decide +kernel), next_of (by decide +kernel), next_of (by decide +kernel),
    next_of (by decide +kernel), next_of (by decide +kernel)⟩
def openNode : State :=
  { commanded 5 0x20000 0 with launches := [{ Launch.start 90 7 0x20000 0 0 0 [] with kind := 2, isOpen := true }] }
theorem witness_close : NextCommand openNode uq 5 (cmd 5 0x20000 0) ∧
    ((openNode.launches.find? fun l => l.recVa == cmdAddr (cmd 5 0x20000 0) && l.qctx == uq.ctx && l.isOpen && decide (l.outcome = none)).map Launch.id) =
      some 90 := next_of (by decide +kernel)
theorem witness_recheck : let q := { uq with watching := true }
    let s := served q [(0x40000, 32, cmd 4 0x70008 5)]
    s.TheQueue q ∧ s.recheckDue q = true ∧ s.command q = some (cmd 4 0x70008 5) ∧ Plain s ∧ s.tags = [] :=
  ⟨⟨rfl, fun x h _ => by simpa [served] using h⟩, by decide +kernel, by decide +kernel, plain_of (by simp [served, State.reset]) rfl rfl rfl, rfl⟩
theorem witness_no_recheck : (commanded 2 0 0).queue? 7 = some uq ∧ (commanded 2 0 0).recheckDue uq = false := by decide +kernel

/-! ### Pre-emption and fault keys -/

/-- A queue of priority 7 whose launch has a team that waits, beside the running launch 1 of a queue of priority 3; a save pool in context 0. -/
def contest (pool : Nat) : State :=
  { at_ 0 with
    mem := put_ [] [(8, 8, 0x80000), (16, 8, pool)], now := 2 ^ 16,
    queues := [{ uq with id := 7, prio := 7 }, { uq with id := 0, slot := 1 }],
    launches := ((at_ 0).launches.map fun l => { l with cls := 1 }) ++ [{ Launch.start 8 7 0x200 0 0 0 [] with kernels := [(0, Kernel.probe)] }], qteams := [{ qt (.core 0) with launch := 8 }],
    teams := (at_ 0).teams.map fun t => { t with nacc := 16 } }
theorem witness_preempt_waits : ∃ x v rest, (contest (2 ^ 30)).launch? 8 = some x ∧ (contest (2 ^ 30)).waitsLong x = true ∧
    (contest (2 ^ 30)).victims (((contest (2 ^ 30)).prioOf x).getD 0) = v :: rest ∧ v.cls ≠ 2 ∧ (contest (2 ^ 30)).launch? v.id = some v ∧
    ((contest (2 ^ 30)).findRun v.ctx ((contest (2 ^ 30)).areaSize v ((contest (2 ^ 30)).teamsOf v.id) * ((contest (2 ^ 30)).teamsOf v.id).length)).isSome = true :=
  ⟨_, _, _, rfl, by decide +kernel, rfl, by decide +kernel, rfl, by decide +kernel⟩
theorem witness_nothing_waits : ∃ x, (at_ 0).launch? 1 = some x ∧ (at_ 0).waitsLong x = false ∧ (at_ 0).stopMoves x = false ∧ (at_ 0).restorable x = false :=
  ⟨_, rfl, by decide +kernel, by decide +kernel, by decide +kernel⟩

/-- A stopped team, good or with an uncorrectable unit, of a grid or of a task; a stop that has come to its end. -/
def stopping (f : Team → Team) : State :=
  ((at_ 0).modLaunch 1 fun l => { l with state := .stopping, savedRuns := [⟨0x80000, 2 ^ 20, 2 ^ 20, 0⟩] }).modTeam 2 fun t => f { t with stopped := true }
def stopMet (s : State) (P : Team → Bool) : Bool :=
  match s.launch? 1 with
  | some x => decide (x.outcome = none ∧ s.stopMoves x = true) && (x.savedRuns.getLast?).isSome && (match s.toSave 1 with
    | [t] => P t
    | _ => false)
  | none => false
theorem witness_stops :
    stopMet (stopping id) (fun t => t.bad == [] && decide (t.origin = .grid)) = true ∧
    stopMet (stopping fun t => { t with bad := [(1, 5)] }) (fun t => t.bad != []) = true ∧
    stopMet (stopping fun t => { t with origin := .task 0 }) (fun t => t.bad == [] && decide (t.origin = .task 0) && !t.committed) = true ∧
    ∃ x, ({ stopping id with teams := [] } : State).launch? 1 = some x ∧ x.outcome = none ∧ ({ stopping id with teams := [] } : State).toSave 1 = [] ∧
      ({ stopping id with teams := [] } : State).stopDone x = true :=
  ⟨by decide +kernel, by decide +kernel, by decide +kernel, _, rfl, rfl, rfl, by decide +kernel⟩

/-- A Saved launch that finds its place and whose area cannot be read. -/
def savedLaunch : State :=
  { (at_ 0).modLaunch 1 fun l => { l with state := .saved } with
    teams := [], fibres := [], saved := (at_ 0).teams.map fun t => ⟨t, [], [], 0x80000, 0x80000, 0, 0⟩ }
theorem witness_restore : ∃ x, savedLaunch.launch? 1 = some x ∧ savedLaunch.restorable x = true ∧ savedLaunch.areasOk x = false ∧
    savedLaunch.savedOf 1 ≠ [] ∧ Plain savedLaunch ∧ savedLaunch.ringRoom :=
  ⟨_, rfl, by decide +kernel, by decide +kernel, by decide +kernel, plain_of (by decide +kernel) rfl rfl rfl, by decide +kernel⟩

/-- A stage with one key that is due after 64 cycles, at core 3 or not. -/
def staged (now : Nat) (ks : List StageEntry) : State :=
  { State.reset with now := now, layers := [{ Layer.reset 23 with stage := [⟨0, 0x10000, 1, 0, 0, 0, false, 1, 23, 0⟩] }], keys := ks }
theorem witness_stage : ∀ now ∈ [63, 64], (∃ x, ((staged now []).layer 23).stage = [x] ∧ (∀ c ∈ (staged now []).cores, dieOf c.id = 23 → c.filter = []) ∧
    (now < x.since + 64 ↔ now = 63) ∧ ∀ y ∈ (staged now []).keys, ¬ (y.ctx = x.ctx ∧ y.va = x.va)) ∧
    ∃ y ∈ (staged now [⟨0, 0x10000, 2, 0, 0, 0, false, 1, 5, 0⟩]).keys, y.ctx = 0 ∧ y.va = 0x10000 := by
  intro now h
  refine ⟨⟨_, rfl, by simp [staged, State.reset], ?_, by simp [staged]⟩, by simp [staged]⟩
  revert now; decide

/-! ### Firmware, host and errors -/

/-- Mailbox n of a package that is up, with a request of a code, TAG 5, and arguments that has been latched; or not yet; and carried out. -/
def mail (n code : Nat) (args : List Nat) : State :=
  let all := args.map (BitVec.ofNat 32) ++ List.replicate (15 - args.length) 0;
  let m : Mailbox := { request := BitVec.ofNat 32 (5 * 2 ^ 8 + code), args := all, status := 0, results := List.replicate 15 0,
                       latched := some (BitVec.ofNat 32 (5 * 2 ^ 8 + code), all), answer := none };
  { at_ 0 with pkg := { State.reset.pkg with boot := .up, mailboxes := State.reset.pkg.mailboxes.set n m } }
def unlatched (n code : Nat) : State :=
  let m : Mailbox := { request := BitVec.ofNat 32 (2 ^ 31 + 5 * 2 ^ 8 + code), args := [], status := 0, results := [], latched := none, answer := none };
  { at_ 0 with pkg := { State.reset.pkg with boot := .up, mailboxes := State.reset.pkg.mailboxes.set n m } }
def answered (n code : Nat) : State :=
  { mail n code [] with pkg := { (mail n code []).pkg with mailboxes := (mail n code []).pkg.mailboxes.set n { (mail n code []).mailbox n with answer := some 9 } } }
def commands : List (Nat × Nat) := [(0, 1), (1, 1), (1, 3), (2, 1), (2, 2), (2, 3), (2, 4), (3, 1), (3, 2), (7, 1), (7, 2)]
theorem witness_mail :
    (∀ p ∈ commands, Serves (mail p.1 p.2 []) p.1 p.2) ∧
    (∀ p ∈ commands, (unlatched p.1 p.2).asked p.1 p.2 = true ∧ ((unlatched p.1 p.2).mailbox p.1).latched = none) ∧
    (∀ p ∈ commands, (answered p.1 p.2).asked p.1 p.2 = true ∧ ((answered p.1 p.2).mailbox p.1).latched.isSome = true ∧
      ((answered p.1 p.2).mailbox p.1).answer = some 9) ∧
    (mail 0 1 []).asked 1 1 = false ∧ Latched { mail 0 1 [] with pkg := { (mail 0 1 []).pkg with displaced := true } } 0 1 ∧
    Serves (mail 4 9 []) 4 9 ∧ ((mail 4 9 []).asking 4).code = 9 ∧ (∀ i, mailStep i ≠ some (4, 9)) ∧ Serves (mail 1 2 [2]) 1 2 ∧
    ((mail 1 2 [2]).asking 1).code = 2 ∧ ((mail 1 2 [2]).asking 1).arg 0 = 2 ∧ (at_ 0).requested 5 = false :=
  ⟨by decide +kernel, by decide +kernel, by decide +kernel, by decide +kernel, by decide +kernel, by decide +kernel, by decide +kernel,
    fun i => by cases i <;> simp [mailStep], by decide +kernel, by decide +kernel, by decide +kernel, by decide +kernel⟩
theorem witness_accept_and_pair :
    (let s := mail 1 1 [31];
      s.pkg.acceptDone = false ∧ BitVec.ofNat 128 ((s.asking 1).long 0 + 2 ^ 64 * (s.asking 1).long 2) &&& ~~~s.pkg.offered = 0) ∧
    (let s := mail 1 1 [32];
      BitVec.ofNat 128 ((s.asking 1).long 0 + 2 ^ 64 * (s.asking 1).long 2) &&& ~~~s.pkg.offered ≠ 0) ∧
    ((mail 1 3 [9, 1]).asking 1).arg 1 ≤ 1 ∧ 1 < ((mail 1 3 [9, 2]).asking 1).arg 1 := by decide +kernel

/-- REGISTER of a block at 0x50000 of zeros but for 16 entries, of a misaligned one; UNREGISTER; PLIMIT in and out of range; PREEMPT. -/
def registering : State := { mail 2 1 [0x50000] with mem := put_ tables [(0x50008, 1, 4)] }
theorem witness_register : let m := registering.asking 2
    m.long 0 % 64 = 0 ∧ registering.registered (m.long 0) (m.long 2) = none ∧ m.long 2 < 2 ^ 46 ∧ registering.inPool (m.long 2) = true ∧
      ((registering.virtRead (m.long 2) (m.long 0) 64).1.bind fun v => parseQcb registering.nextId (m.long 0) (m.long 2) v).isSome = true ∧
      ((mail 2 1 [0x50001]).asking 2).long 0 % 64 ≠ 0 := by decide +kernel
theorem witness_queue_commands :
    (let s : State := { mail 2 2 [0x50000] with queues := [{ uq with state := .unmapped }] };
      (s.registered ((s.asking 2).long 0) ((s.asking 2).long 2)).map UQueue.state = some .unmapped) ∧
    (mail 2 2 [0x50000]).registered (((mail 2 2 [0x50000]).asking 2).long 0) (((mail 2 2 [0x50000]).asking 2).long 2) = none ∧
    (let m := (mail 2 3 [255, 64]).mailbox 2;
      m.arg 0 ≤ 255 ∧ 1 ≤ m.arg 1 ∧ m.arg 1 ≤ 64) ∧ ((mail 2 3 [0, 0]).asking 2).arg 1 < 1 ∧
    (let s : State := { mail 2 4 [0] with mem := put_ [] [(8, 8, 0x80000), (16, 8, 2 ^ 30)] };
      ((s.launches.find? fun l => l.recVa == (s.asking 2).long 0 && l.runs).map fun l => decide (s.teamsOf l.id ≠ []) &&
        (s.findRun l.ctx (s.areaSize l (s.teamsOf l.id) * (s.teamsOf l.id).length)).isSome) = some true) ∧
    (let s : State := mail 2 4 [0];
      ((s.launches.find? fun l => l.recVa == (s.asking 2).long 0 && l.runs).map fun l =>
        (s.findRun l.ctx (s.areaSize l (s.teamsOf l.id) * (s.teamsOf l.id).length)).isNone) = some true) ∧
    ((mail 2 4 [0x100]).launches.find? fun l => l.recVa == ((mail 2 4 [0x100]).asking 2).long 0 && l.runs) = none := by decide +kernel
theorem witness_changes_of_the_driver :
    (let s := mail 3 1 [0, 0, 0x10000, 0, 0x10000];
      s.quiet ((s.asking 3).long 0) = true ∧ s.sideLog = []) ∧ { underWay word1 req1 with pkg := (mail 3 1 [0]).pkg }.quiet 0 = false ∧
    2 ^ 20 < ((mail 3 2 [2 ^ 20, 0, 0, 0, 0, 1]).asking 3).arg 0 + ((mail 3 2 [2 ^ 20, 0, 0, 0, 0, 1]).asking 3).arg 5 ∧
    ((mail 3 2 [2 ^ 20 - 1, 0, 0, 0, 0, 1]).asking 3).arg 0 + ((mail 3 2 [2 ^ 20 - 1, 0, 0, 0, 0, 1]).asking 3).arg 5 ≤ 2 ^ 20 ∧
    (mail 7 2 [0, 23, 89]).pkg.isActive 23 89 = true ∧ 63 ∈ ((mail 7 2 [1, 3, 63]).tower 3).slices ∧ 2 ≤ ((mail 7 2 [1, 3, 63]).tower 3).slices.length := by
  decide +kernel

/-- UPDATE of core 7 before and in the handover to an image of no bytes, and of no core. -/
def updating (image : Option (List Byte)) : State :=
  { mail 7 1 [7, 0, 0, 0, 0, 0] with
    pkg := { (mail 7 1 [7, 0, 0, 0, 0, 0]).pkg with fw := (mail 7 1 []).pkg.fw.set 7 { FwCore.reset with handover := image } } }
theorem witness_update : (∀ image ∈ [none, some []], Serves (updating image) 7 1 ∧ (updating image).pkg.fw.length = 8 ∧
    ((updating image).asking 7).arg 0 = 7 ∧ ((updating image).fwCore 7).handover = image) ∧ ((mail 7 1 [8]).asking 7).arg 0 = 8 := by decide +kernel

/-- Boot, heat, heartbeats, takeover. -/
def upAt (now : Nat) (f : Package → Package) : State := { at_ 0 with now := now, pkg := f { State.reset.pkg with boot := .up } }
theorem witness_boot : (at_ 0).pkg.boot ≠ .coolant ∧ ({ State.reset with pkg := { State.reset.pkg with boot := .coolant } } : State).pkg.boot = .coolant := by decide
theorem witness_thermal_stop : Plain { State.reset with now := 5 } ∧ ({ State.reset with now := 5 } : State).ringRoom ∧ ∃ l, (at_ 0).launches = [l] ∧
    l.outcome = none ∧ l.state = .running ∧ (∃ t ∈ (at_ 0).teams, t.launch = l.id ∧ towerOf t.core = 0) ∧
    (({ at_ 0 with mem := put_ [] [(16, 8, 2 ^ 30)] } : State).findRun l.ctx ((at_ 0).areaSize l ((at_ 0).teamsOf l.id) * ((at_ 0).teamsOf l.id).length)).isSome = true :=
  ⟨plain_of (by simp [State.reset]) rfl rfl rfl, by decide +kernel, _, rfl, rfl, rfl, by decide +kernel, by decide +kernel⟩
theorem witness_heartbeats :
    ((upAt (2 ^ 20) id).pkg.fw.length = 8 ∧ (upAt (2 ^ 20) id).beatDue 1 = true ∧ ∀ k, k < 1 → (upAt (2 ^ 20) id).beatDue k = false) ∧
    (∀ n, n < 8 → (at_ 0).beatDue n = false ∧ (at_ 0).beatLost n = false) ∧
    ((upAt (2 ^ 22) id).beatLost 1 = true ∧ (∀ k, k < 1 → (upAt (2 ^ 22) id).beatLost k = false) ∧ ∀ c ∈ ((upAt (2 ^ 22) id).fwCore 1).failures, c + 2 ^ 34 < 2 ^ 22) ∧
    (let s := upAt (2 ^ 22) fun p => { p with fw := List.replicate 8 { FwCore.reset with failures := [5] } };
      s.pkg.fw.length = 8 ∧ s.beatLost 1 = true ∧ (∃ c ∈ (s.fwCore 1).failures, s.now ≤ c + 2 ^ 34) ∧ s.ringRoom) ∧
    (upAt 0 id).pkg.fatal = none := by decide +kernel
theorem witness_plain_heartbeat : Plain (upAt (2 ^ 22) id) := plain_of (by decide +kernel) rfl rfl rfl
theorem witness_takeover : (at_ 0).pkg.pair = none ∧ (upAt (2 ^ 24) fun p => { p with pair := some (9, 1) }).pkg.pair = some (9, 1) ∧
    (upAt (2 ^ 24) fun p => { p with pair := some (9, 1) }).pkg.pairBeat + 2 ^ 24 ≤ 2 ^ 24 := by decide

/-- One page of the aperture that leads to the page 0x70000 of context 0. -/
def apertured : State := { State.reset with mem := tables, pkg := { State.reset.pkg with aperture := [(0, 0, 0x70000)] } }
theorem apertured_maps (p : Perm) : apertured.Maps 0 0x70008 4 (placeOf 0 0 0x70008).key p :=
  maps_of (by decide +kernel) (by decide +kernel) (by unfold apertured; rfl) (by decide +kernel) p
theorem apertured_behind : ∀ i, i < 4 → apertured.behind (8 + i) = some (0, 0x70008 + i) := by decide +kernel
theorem apertured_exacts : apertured.exacts = [] := by unfold apertured; rfl
theorem leads_of {s : State} {ctx va n key off : Nat} {p : Perm} (m : s.Maps ctx va n key p) (ex : s.exacts = [])
    (hb : ∀ i, i < n → s.behind (off + i) = some (ctx, va + i)) : s.Leads off n key p := by
  intro i hi
  obtain ⟨q, h, k⟩ := m s rfl ex (fun _ _ => rfl) i hi
  refine ⟨q, ?_, k⟩
  rw [State.reach, hb i hi]
  simp only [h]
theorem witness_host_leads (p : Perm) : apertured.Leads 8 4 (placeOf 0 0 0x70008).key p := leads_of (apertured_maps p) apertured_exacts apertured_behind
theorem witness_posted : let s : State := { apertured with pkg := { apertured.pkg with posted := [(8, [1, 2, 3, 4])] } }
    s.pkg.posted = [(8, [1, 2, 3, 4])] ∧ Plain s ∧ apertured.pkg.posted = [] :=
  ⟨rfl, plain_of (by simp [apertured, State.reset]) rfl rfl rfl, rfl⟩
theorem witness_host : Plain apertured ∧ apertured.tags = [] ∧ ∀ k, k < 4 → apertured.behind (65536 + k) = none :=
  ⟨plain_of (by simp [apertured, State.reset]) rfl rfl rfl, rfl, by decide +kernel⟩

/-- Changes in service: a core, a slice, a core without a team; a drained slice. -/
def changing (f : Tower → Tower) : State := { (upAt 0 id).modTower 0 f with teams := [] }
theorem witness_changes_in_service :
    ((∀ n, n < 4 → (upAt 0 id).changeMoves n = false) ∧ ∀ n, n < 4 → (upAt 0 id).sliceDrained n = false) ∧
    (let s := changing fun y => { y with waitingChanges := [(0, 5, 0)] };
      s.changeMoves 0 = true ∧ (s.tower 0).change = none ∧ s.pkg.isActive (dieOf 5) (5 % 96) = true) ∧
    (let s := changing fun y => { y with waitingChanges := [(1, 63, 2)] };
      s.changeMoves 0 = true ∧ 63 ∈ (s.tower 0).slices ∧ 2 ≤ (s.tower 0).slices.length ∧ s.watches = [] ∧ s.exacts = [] ∧ s.pkg.lostLines = []) ∧
    (let s := changing fun y => { y with change := some (0, 5, 0) };
      s.changeMoves 0 = true ∧ (∀ t ∈ s.teams, t.core ≠ 5) ∧ s.pkg.coreMap.length = 24 ∧ s.ringRoom) ∧
    (let s := changing fun y => { y with retire := some ⟨63, 5, 2, []⟩ };
      s.sliceDrained 0 = true ∧ ∀ k, k < 0 → s.sliceDrained k = false) := by decide +kernel

/-- Links that have been resent up to their limit, and not; ports that are up and down. -/
def resent (kind n k : Nat) : State := upAt 0 fun p => { p with linkRetries := [(linkKey kind n, k)], ports := List.replicate 18 1 }
theorem witness_links : (resent 0 63 16).ringRoom ∧ 16 ≤ (resent 0 63 16).retries 0 63 ∧ (resent 0 63 15).retries 0 63 < 16 ∧ 8 ≤ (resent 1 (bridgeNo 3 2) 8).retries 1 (bridgeNo 3 2) ∧
    ((resent 2 17 0).port 17).getLsbD 0 = true ∧ ((at_ 0).port 17).getLsbD 0 = false ∧ (resent 2 17 0).pkg.ports.length = 18 ∧
    (resent 2 17 0).recalibrates 17 = false ∧ (resent 2 17 7).retries 2 17 < 8 ∧ 8 ≤ (resent 2 17 8).retries 2 17 := by
  decide +kernel

/-- Storage errors: counted within the time, or recorded; of a line; of a team with its fibre Current. -/
theorem witness_storage_errors :
    (at_ 0).errCount (errKey 3 9 0) = 0 ∧ (at_ 0).fibre? 99 = none ∧ Plain (at_ 0) ∧ (at_ 0).ringRoom ∧
    ∃ f t, (at_ 0).team? 2 = some t ∧ (at_ 0).fibre? 3 = some f ∧ f.id = 3 ∧ f.team = t.id ∧ f.run = .current ∧ f.pending = none :=
  ⟨by decide +kernel, rfl, plain_of (by decide +kernel) rfl rfl rfl, by decide +kernel, _, _, rfl, rfl, rfl, rfl, rfl, rfl⟩

/-- R15, R397, R405: the entry of a die in the window (cores 88 and 89 active, NACT 90, NSPARE 6), the offered vector, boot status. -/
theorem test_host_window :
    [11, 12, 27, 28, 0x510, 0x530, 0x10000, 0xFFFF].map (upAt 0 id).windowByte = [3, 90, 0xFC, 6, 31, 0, 0, 0] := by decide +kernel

end Sys2Proof.Tests
end

section
/-! SUPPORT. Every step keeps memory in its canonical form.

Memory changes through the home operations only, and the laws of Home say that those keep it canonical. Every other
function of the model leaves memory as it is or is put together from functions that keep it. So there is one lemma for
each function that answers a state, or an outcome that holds one: it says that a canonical state gives a canonical one.
The lemmas stand in the order of the model's files, each under the predicate of its argument, so that a function's proof
follows its body from operation to operation (`h.modTeam.wakePhase.progress`). -/
namespace Sys2Proof.Machine

/-! ## Rules for the shapes of a definition -/

/-- The state after an operation that also answers a value. -/
theorem State.Inv.after {α : Type} {p : α × State} {a : α} {t : State} (h : p.2.Inv) (e : p = (a, t)) : t.Inv := by
  rw [e] at h
  exact h

/-- An operation that leaves memory as it is. -/
theorem State.Inv.of_mem {s t : State} (h : s.Inv) (e : t.mem = s.mem) : t.Inv := by
  rw [State.Inv, e]
  exact h

theorem State.Inv.ite {c : Prop} [Decidable c] {s t : State} (hs : s.Inv) (ht : t.Inv) : (if c then s else t).Inv := by
  split <;> assumption

theorem State.Inv.foldl {α : Type} {f : State → α → State} {xs : List α} {s : State} (hf : ∀ s x, s.Inv → (f s x).Inv)
    (h : s.Inv) : (xs.foldl f s).Inv := by
  induction xs generalizing s with
  | nil => exact h
  | cons x xs ih => exact ih (hf s x h)

/-- A fold that gathers a value beside the state. -/
theorem State.Inv.foldlSnd {α β : Type} {f : β × State → α → β × State} {xs : List α} {r : β × State}
    (hf : ∀ r x, r.2.Inv → (f r x).2.Inv) (h : r.2.Inv) : (xs.foldl f r).2.Inv := by
  induction xs generalizing r with
  | nil => exact h
  | cons x xs ih => exact ih (hf r x h)

/-- The state in which an instruction issues has canonical memory. -/
def Iss.Inv (x : Iss) : Prop := x.v.s.Inv

theorem Iss.Inv.state {x : Iss} (h : x.Inv) : x.v.s.Inv := h

/-- Memory is canonical in the state that the end of an issue carries. -/
inductive Act.Inv : Act → Prop
  | next {s : State} (h : s.Inv) : Act.Inv (.next s)
  | moved {s : State} (h : s.Inv) : Act.Inv (.moved s)
  | placed {s : State} (h : s.Inv) : Act.Inv (.placed s)
  | hold {s : State} (h : s.Inv) : Act.Inv (.hold s)
  | trap {c f d : Nat} {m : Mask} {o : Nat} : Act.Inv (.trap c f d m o)
  | fails {s : State} {c d : Nat} {m : Mask} (h : s.Inv) : Act.Inv (.fails s c d m)

theorem Act.Inv.ite {c : Prop} [Decidable c] {s t : Act} (hs : s.Inv) (ht : t.Inv) : (if c then s else t).Inv := by
  split <;> assumption

/-- Memory is canonical in the end of issue that a check finds, when it finds one. -/
inductive FoundInv : Option Act → Prop
  | none : FoundInv .none
  | some {a : Act} (h : a.Inv) : FoundInv (.some a)

theorem FoundInv.of_some {o : Option Act} {a : Act} (h : FoundInv o) (e : o = .some a) : a.Inv := by
  subst e
  cases h
  assumption

theorem FoundInv.ite {c : Prop} [Decidable c] {s t : Option Act} (hs : FoundInv s) (ht : FoundInv t) :
    FoundInv (if c then s else t) := by
  split <;> assumption

theorem FoundInv.mapTrap {α : Type} {c f d : Nat} {m : Mask} {k : α → Nat} {o : Option α} :
    FoundInv (o.map fun a => .trap c f d m (k a)) := by
  cases o
  · exact .none
  · exact .some .trap

/-- Memory is canonical in the state that an operation answers, when it answers one. -/
inductive SomeInv : Option State → Prop
  | none : SomeInv .none
  | some {s : State} (h : s.Inv) : SomeInv (.some s)

theorem SomeInv.of_some {o : Option State} {s : State} (h : SomeInv o) (e : o = .some s) : s.Inv := by
  subst e
  cases h
  assumption

theorem SomeInv.ite {c : Prop} [Decidable c] {s t : Option State} (hs : SomeInv s) (ht : SomeInv t) :
    SomeInv (if c then s else t) := by
  split <;> assumption

theorem SomeInv.map {α : Type} {f : α → State} {o : Option α} (hf : ∀ a, (f a).Inv) : SomeInv (o.map f) := by
  cases o
  · exact .none
  · exact .some (hf _)

theorem SomeInv.mapState {f : State → State} {o : Option State} (h : SomeInv o) (hf : ∀ s, s.Inv → (f s).Inv) :
    SomeInv (o.map f) := by
  cases h with
  | none => exact .none
  | some h => exact .some (hf _ h)

theorem State.Inv.getD {o : Option State} (h : s.Inv) (ho : SomeInv o) : (o.getD s).Inv := by
  cases ho with
  | none => exact h
  | some ht => exact ht

theorem SomeInv.findSome {α : Type} {f : α → Option State} {xs : List α} (hf : ∀ x, SomeInv (f x)) :
    SomeInv (xs.findSome? f) := by
  induction xs with
  | nil => exact .none
  | cons x xs ih =>
    rw [List.findSome?_cons]
    split
    · rename_i e
      exact .some ((hf x).of_some e)
    · exact ih

/-- Memory is canonical in the state that a turn of an engine operation carries. -/
inductive Turn.Inv : Turn → Prop
  | more {s : State} {pos part got : Nat} (h : s.Inv) : Turn.Inv (.more s pos part got)
  | done {s : State} {ws : List RegWrite} (h : s.Inv) : Turn.Inv (.done s ws)
  | miss {s : State} {m : Miss} (h : s.Inv) : Turn.Inv (.miss s m)
  | waits {s : State} (h : s.Inv) : Turn.Inv (.waits s)
  | stuck {s : State} {va : Nat} (h : s.Inv) : Turn.Inv (.stuck s va)
  | trap {s : State} {c d o : Nat} (h : s.Inv) : Turn.Inv (.trap s c d o)

theorem Turn.Inv.of_miss {s : State} {m : Miss} (h : (Turn.miss s m).Inv) : s.Inv := by
  cases h
  assumption

theorem Turn.Inv.of_trap {s : State} {c d o : Nat} (h : (Turn.trap s c d o).Inv) : s.Inv := by
  cases h
  assumption

theorem Turn.Inv.ite {c : Prop} [Decidable c] {s t : Turn} (hs : s.Inv) (ht : t.Inv) : (if c then s else t).Inv := by
  split <;> assumption

/-- Memory is canonical in the state that an access of an engine operation leaves. -/
inductive Io.Inv : Io → Prop
  | ok {v : Nat} {s : State} (h : s.Inv) : Io.Inv (.ok v s)
  | stop {t : Turn} (h : t.Inv) : Io.Inv (.stop t)

theorem Io.Inv.of_ok {o : Io} {v : Nat} {s : State} (h : o.Inv) (e : o = .ok v s) : s.Inv := by
  subst e
  cases h
  assumption

theorem Io.Inv.of_stop {o : Io} {t : Turn} (h : o.Inv) (e : o = .stop t) : t.Inv := by
  subst e
  cases h
  assumption

theorem Io.Inv.ite {c : Prop} [Decidable c] {s t : Io} (hs : s.Inv) (ht : t.Inv) : (if c then s else t).Inv := by
  split <;> assumption

/-- Memory is canonical in the state on either side of a switch point. -/
inductive Switch.Inv : Switch → Prop
  | leave {s : State} (h : s.Inv) : Switch.Inv (.leave s)
  | go {s : State} (h : s.Inv) : Switch.Inv (.go s)

theorem Switch.Inv.of_leave {w : Switch} (h : w.Inv) (e : w = .leave s) : s.Inv := by
  subst e
  cases h
  assumption

theorem Switch.Inv.of_go {w : Switch} (h : w.Inv) (e : w = .go s) : s.Inv := by
  subst e
  cases h
  assumption

theorem Switch.Inv.ite {c : Prop} [Decidable c] {s t : Switch} (hs : s.Inv) (ht : t.Inv) : (if c then s else t).Inv := by
  split <;> assumption

/-- Memory is canonical in the state that a step answers, when it answers one. -/
inductive NextInv : Host.Outcome State Fault Refusal → Prop
  | next {s : State} (h : s.Inv) : NextInv (.next s)
  | fault {f : Fault} : NextInv (.fault f)
  | refused {r : Refusal} : NextInv (.refused r)

theorem NextInv.ite {c : Prop} [Decidable c] {s t : Host.Outcome State Fault Refusal} (hs : NextInv s) (ht : NextInv t) :
    NextInv (if c then s else t) := by
  split <;> assumption

/-! ## Memory at home -/

variable {s : State}

theorem State.Inv.materialise {k n : Nat} (h : s.Inv) : (s.materialise k n).Inv := s.materialise_wf k n h
theorem State.Inv.closeExacts {k n : Nat} (h : s.Inv) : (s.closeExacts k n).Inv := s.closeExacts_wf k n h
theorem State.Inv.homeRead {k n : Nat} (h : s.Inv) : (s.homeRead k n).2.Inv := h.materialise
theorem State.Inv.homeWrite {k n v : Nat} (h : s.Inv) : (s.homeWrite k n v).Inv := s.homeWrite_wf k n v h
theorem State.Inv.homeWriteBits {k bit nbits v : Nat} (h : s.Inv) : (s.homeWriteBits k bit nbits v).Inv :=
  s.homeWriteBits_wf k bit nbits v h
theorem State.Inv.homeXadd {k bank w : Nat} {isFloat sat : Bool} (h : s.Inv) : (s.homeXadd k bank isFloat sat w).Inv :=
  s.homeXadd_wf k bank isFloat sat w h
theorem State.Inv.wakeWhere {p : Watch → Bool} (h : s.Inv) : (s.wakeWhere p).Inv := h.of_mem (s.wakeWhere_mem p)
theorem State.Inv.wakeWatch {w : Watch} (h : s.Inv) : (s.wakeWatch w).Inv := h.of_mem (s.wakeWatch_mem w)
theorem State.Inv.wakePast {f : Nat} {lanes : Mask} (h : s.Inv) : (s.wakePast f lanes).Inv := h.of_mem (s.wakePast_mem f lanes)
theorem State.Inv.wake {f : Nat} (h : s.Inv) : (s.wake f).Inv := h.of_mem (s.wake_mem f)
theorem State.Inv.setCurrent {c j : Nat} {f : Option Nat} (h : s.Inv) :
    (s.setCurrent c j f).Inv := h.of_mem (s.setCurrent_mem c j f)
theorem State.Inv.leave {f : Nat} {r : Run} {w : Waits} (h : s.Inv) : (s.leave f r w).Inv := h.of_mem (s.leave_mem f r w)

/-! ## Machine/Sched

From here each section holds the lemmas of the model's file that it names. -/

theorem State.Inv.modFibre {f : Nat} {g : Fibre → Fibre} (h : s.Inv) : (s.modFibre f g).Inv := h.of_mem rfl
theorem State.Inv.modTeam {t : Nat} {g : Team → Team} (h : s.Inv) : (s.modTeam t g).Inv := h.of_mem rfl
theorem State.Inv.modLaunch {l : Nat} {g : Launch → Launch} (h : s.Inv) : (s.modLaunch l g).Inv := h.of_mem rfl
theorem State.Inv.modCore {c : Nat} {g : Core → Core} (h : s.Inv) : (s.modCore c g).Inv := h.of_mem rfl
theorem State.Inv.modTower {t : Nat} {g : Tower → Tower} (h : s.Inv) : (s.modTower t g).Inv := h.of_mem rfl
theorem State.Inv.modLayer {d : Nat} {g : Layer → Layer} (h : s.Inv) : (s.modLayer d g).Inv := h.of_mem rfl
theorem State.Inv.modQueue {q : Nat} {g : UQueue → UQueue} (h : s.Inv) : (s.modQueue q g).Inv := h.of_mem rfl
theorem State.Inv.modPkg {g : Package → Package} (h : s.Inv) : (s.modPkg g).Inv := h.of_mem rfl

theorem State.Inv.wakeIfDone {fid : Nat} (h : s.Inv) : (s.wakeIfDone fid).Inv := by
  simp only [State.wakeIfDone]
  split
  · exact .ite h.wake h
  · exact h

theorem State.Inv.progress {l : Nat} (h : s.Inv) : (s.progress l).Inv := h.modLaunch

theorem State.Inv.progressTeam {t : Nat} (h : s.Inv) : (s.progressTeam t).Inv := by
  simp only [State.progressTeam]
  split
  · exact h.progress
  · exact h

theorem State.Inv.fresh (h : s.Inv) : (s.fresh).2.Inv := h.of_mem rfl
theorem State.Inv.endLaunch {l status code : Nat} (h : s.Inv) : (s.endLaunch l status code).Inv := h.modLaunch

/-! ## Machine/Home -/

theorem State.Inv.addWatch {w : Watch} (h : s.Inv) : (s.addWatch w).Inv := by
  simp only [State.addWatch, State.Inv]
  refine State.Inv.ite h ?_
  split
  · exact State.Inv.wakeWatch (h.of_mem rfl)
  · exact h

theorem State.Inv.spill {k : Nat} (h : s.Inv) : (s.spill k).Inv := h.materialise.of_mem rfl

theorem State.Inv.spillSlice {bank owner : Nat} (h : s.Inv) : (s.spillSlice bank owner).Inv := by
  simp only [State.spillSlice, State.Inv]
  exact State.Inv.foldl (fun _ _ h => h.spill) h

theorem State.Inv.writeBackLine {core : Nat} {x : L1Line} (h : s.Inv) :
    (s.writeBackLine core x).Inv := .modCore (.foldl (fun _ _ h => h.homeWrite) h)

theorem State.Inv.writeBackAt {core line : Nat} (h : s.Inv) : (s.writeBackAt core line).Inv := by
  simp only [State.writeBackAt]
  split
  · exact h.writeBackLine
  · exact h

theorem State.Inv.writeBackAll {core : Nat} (h : s.Inv) :
    (s.writeBackAll core).Inv := .foldl (fun _ _ h => .ite h h.writeBackLine) h

theorem State.Inv.dropLine {core line : Nat} (h : s.Inv) : (s.dropLine core line).Inv := .ite h.modCore h
theorem State.Inv.invalidateAll {core : Nat} (h : s.Inv) : (s.invalidateAll core).Inv := .ite h h.writeBackAll.modCore
theorem State.Inv.promote {core : Nat} (h : s.Inv) : (s.promote core).Inv := h.writeBackAll.of_mem rfl

theorem State.Inv.evictLine {core : Nat} {x : L1Line} (h : s.Inv) :
    (s.evictLine core x).Inv := .dropLine (.ite h.promote h.writeBackLine)

theorem State.Inv.fillLine {core line : Nat} {first : Bool} (h : s.Inv) : (s.fillLine core line first).Inv := by
  unfold State.fillLine
  extract_lets ways set out room
  have roomed : room.Inv := by
    refine .ite h ?_
    split
    · exact h.evictLine
    · exact h
  exact .ite h (.ite roomed.homeRead roomed.homeRead.modCore)

theorem State.Inv.modLine {core line : Nat} {g : L1Line → L1Line} (h : s.Inv) : (s.modLine core line g).Inv := h.modCore
theorem State.Inv.stage {bank line : Nat} (h : s.Inv) : (s.stage bank line).Inv := .ite h (h.of_mem rfl)

theorem State.Inv.addTag {line bank core : Nat} (h : s.Inv) : (s.addTag line bank core).Inv := by
  unfold State.addTag
  extract_lets promoted untagged same room
  have hp : promoted.Inv := by
    unfold promoted
    split
    · exact .ite h h.promote
    · exact h
  have hu : untagged.Inv := hp
  have hr : room.Inv := by
    refine .ite hu ?_
    split
    · exact hu.promote
    · exact hu
  exact hr

theorem State.Inv.serveTag {line core : Nat} (h : s.Inv) : (s.serveTag line core).Inv := by
  simp only [State.serveTag]
  split
  · exact .ite h h.promote
  · exact h

theorem State.Inv.physRead {pa n : Nat} (h : s.Inv) : (s.physRead pa n).2.Inv := h.homeRead

theorem State.Inv.errorRecord {type sev src core die twr : Nat} {body : List (Nat × Nat × Nat)} (h : s.Inv) :
    (s.errorRecord type sev src core die twr body).Inv := by
  simp only [State.errorRecord]
  refine .ite h.homeRead.homeRead.homeRead.homeWrite.modPkg ?_
  exact .modPkg (.homeWrite (.foldl (fun _ _ h => h.homeWrite) h.homeRead.homeRead.homeWrite))

/-! ## Machine/Operands -/

theorem State.Inv.view {v : View} (h : s.Inv) (e : s.view = some v) : v.s.Inv := by
  have hv : v.s = s := by
    simp only [State.view] at e
    grind
  rwa [hv]

/-! ## Machine/Ops -/

theorem State.Inv.writeReg {fid : Nat} {until_ : Option Nat} {w : RegWrite} {result : Option Nat} (h : s.Inv) :
    (s.writeReg fid until_ w result).Inv := by
  simp only [State.writeReg]
  split
  · exact h
  · split
    · exact h
    · exact h.modTeam.modFibre

theorem State.Inv.writeRegs {fid : Nat} {until_ : Option Nat} {ws : List RegWrite} {result : Option Nat} (h : s.Inv) :
    (s.writeRegs fid until_ ws result).Inv := .foldl (fun _ _ h => h.writeReg) h

theorem State.Inv.raiseFlags {fid : Nat} {until_ : Option Nat} {fl : Nat} (h : s.Inv) :
    (s.raiseFlags fid until_ fl).Inv := .ite h h.modFibre

theorem State.Inv.wakePhase {which : Nat} {fs : List Fibre} (h : s.Inv) : (s.wakePhase which fs).Inv := by
  simp only [State.wakePhase]
  refine .foldl (fun s x h => ?_) h
  split
  · exact .ite h.wakePast h
  · exact .ite h.wake h
  · exact h

theorem State.Inv.checkBar {team b : Nat} (h : s.Inv) : (s.checkBar team b).Inv := by
  simp only [State.checkBar]
  split
  · exact h
  · exact .ite h.modTeam.wakePhase.progress h

theorem State.Inv.orderSlot {team slot : Nat} (h : s.Inv) : (s.orderSlot team slot).Inv := h.of_mem rfl

theorem State.Inv.checkFbar {team slot : Nat} (h : s.Inv) : (s.checkFbar team slot).Inv := by
  simp only [State.checkFbar]
  split
  · exact h
  · exact .ite h.modTeam.orderSlot.wakePhase.progress h

theorem State.Inv.checkCbar {team : Nat} (h : s.Inv) : (s.checkCbar team).Inv := by
  simp only [State.checkCbar]
  split
  · exact h
  · exact .ite (.progress (.foldl (fun _ _ h => h.modTeam.invalidateAll.wakePhase) h)) h

theorem State.Inv.checkAll {team slot : Nat} (h : s.Inv) :
    (s.checkAll team slot).Inv := .checkCbar (.checkFbar (.foldl (fun _ _ h => h.checkBar) h))

theorem State.Inv.wakeHeldFibre {fid : Nat} (h : s.Inv) : (s.wakeHeldFibre fid).Inv := by
  simp only [State.wakeHeldFibre]
  split
  · exact h.wake.checkAll
  · exact h.wake

theorem State.Inv.feServe {team w : Nat} (h : s.Inv) : (s.feServe team w).Inv := by
  simp only [State.feServe]
  split
  · exact h
  · split
    · exact h
    · exact .ite h h.modTeam.modFibre

theorem State.Inv.feLook {words : List (Nat × Nat)} (h : s.Inv) : (s.feLook words).Inv := .foldl (fun _ _ h => h.feServe) h

theorem State.Inv.feDrop {here : FeWait → Bool} (h : s.Inv) : (s.feDrop here).Inv := by
  simp only [State.feDrop]
  split
  · exact h
  · exact .feLook (h.of_mem rfl)

theorem State.Inv.dropPlaces {fid : Nat} {lanes : Mask} (h : s.Inv) : (s.dropPlaces fid lanes).Inv := h.feDrop

theorem State.Inv.endFibre {fid : Nat} (h : s.Inv) : (s.endFibre fid).Inv := by
  simp only [State.endFibre]
  split
  · exact h.modFibre.leave
  · exact h.modFibre.leave.dropPlaces.checkAll

theorem State.Inv.exitLanes {fid : Nat} {lanes : Mask} (h : s.Inv) : (s.exitLanes fid lanes).Inv := by
  simp only [State.exitLanes]
  split
  · exact .ite h.modFibre.dropPlaces.endFibre h.modFibre.dropPlaces
  · exact h.modFibre.dropPlaces

theorem State.Inv.fatalTrap {t : Team} {l : Launch} {i : TrapInfo} {double : Bool} (h : s.Inv) :
    (s.fatalTrap t l i double).Inv := h.errorRecord.endLaunch

theorem State.Inv.takeTrap {fid : Nat} {i : TrapInfo} (h : s.Inv) : (s.takeTrap fid i).Inv := by
  simp only [State.takeTrap]
  split
  · exact h
  · split
    · exact h
    · split
      · exact h
      · split
        · exact h.modFibre.leave.fatalTrap
        · split
          · exact h.modFibre.leave.fatalTrap
          · refine .wake ?_
            simp only [State.Inv]
            exact h.modFibre.leave.modFibre

theorem State.Inv.returnTrap {fid mode : Nat} (h : s.Inv) : (s.returnTrap fid mode).Inv := by
  simp only [State.returnTrap]
  split
  · exact h
  · exact .ite h.endFibre h.feDrop.modFibre.feLook.checkAll

theorem State.Inv.postTrap {fid : Nat} {i : TrapInfo} (h : s.Inv) : (s.postTrap fid i).Inv := by
  simp only [State.postTrap]
  split
  · exact h
  · split
    · split
      · exact h
      · split
        · exact h
        · exact h.fatalTrap
    · exact .ite h.modFibre.leave h.modFibre

theorem State.Inv.chose {t : Team} {f : Fibre} (h : s.Inv) : (s.chose t f).Inv := h.modCore

theorem State.Inv.raise {fid : Nat} {i : TrapInfo} (h : s.Inv) : (s.raise fid i).Inv := by
  simp only [State.raise]
  split
  · exact h.modFibre.leave
  · split
    · exact h.modFibre.leave
    · exact h.modFibre.leave.chose

theorem State.Inv.stamp {x : Iss} (h : s.Inv) : (x.stamp s).Inv := h.modFibre.chose
theorem State.Inv.advance {x : Iss} {lanes : Mask} (h : s.Inv) : (x.advance s lanes).Inv := h.modFibre

/-- The end of an issue keeps memory canonical, the checks' trap among them (R410). -/
theorem Iss.Inv.finish {x : Iss} {a : Act} (h : x.Inv) (ha : a.Inv) : (x.finish a).Inv := by
  cases ha with
  | next h => exact h.advance.stamp
  | moved h => exact h.advance.stamp
  | placed h => exact h.stamp
  | hold h => exact h.modFibre
  | trap => exact h.state.raise
  | fails h => exact h.raise

theorem Iss.Inv.issueOn {x : Iss} {i : Instr} {step3 : Iss → Option (Nat × Nat)} {body : Iss → Act}
    (h : x.Inv) (hb : (body x).Inv) : (issueOn i x step3 body).Inv := by
  simp only [Machine.issueOn]
  split
  · exact .trap
  · split
    · exact .trap
    · split
      · exact .trap
      · exact .ite (.next h.state) hb

/-- An instruction keeps memory canonical when its body does. -/
theorem State.Inv.issue {i : Instr} {e : Enc} {step3 : Iss → Option (Nat × Nat)} {body : Iss → Act} (h : s.Inv)
    (hb : ∀ x : Iss, x.Inv → (body x).Inv) : NextInv (issue i e step3 body s) := by
  simp only [Machine.issue]
  split
  · exact .fault
  · rename_i v hv
    have hx : Iss.Inv (v.issue i e) := State.Inv.view h hv
    exact .next (hx.finish (hx.issueOn (hb _ hx)))

theorem Iss.Inv.fixed {x : Iss} {lam : Nat} {ws : List RegWrite} {fl : Nat} (h : x.Inv) :
    (x.fixed lam ws fl).Inv := .next h.state.writeRegs.raiseFlags

theorem State.Inv.addResult {fid : Nat} {known : Bool} {ws : List RegWrite} {fl : Nat} (h : s.Inv) :
    (s.addResult fid known ws fl).2.Inv := by
  simp only [State.addResult, State.Inv]
  exact h.fresh

theorem Iss.Inv.variable {x : Iss} {ws : List RegWrite} {fl : Nat} (h : x.Inv) :
    (x.variable ws fl).Inv := .next h.state.addResult

theorem Act.Inv.badValue {_x : Iss} {field : Nat} {mask : Mask} : (_x.badValue field mask).Inv := .trap
theorem State.Inv.park {x : Iss} {run : Run} {w : Waits} (h : s.Inv) : (x.park s run w).Inv := .moved h.leave

/-! ## Machine/Trans -/

theorem State.Inv.walkFrom {va level table : Nat} (h : s.Inv) : (s.walkFrom va level table).2.Inv := by
  induction level generalizing s table with
  | zero => exact h
  | succ level ih =>
    simp only [State.walkFrom]
    split
    · exact h
    · split
      · exact h.physRead
      · split
        · exact h.physRead
        · split
          · split
            · exact h.physRead
            · split <;> exact h.physRead
          · exact ih h.physRead

theorem State.Inv.walk {ctx va : Nat} (h : s.Inv) : (s.walk ctx va).2.Inv := h.physRead.walkFrom

theorem State.Inv.translate {core ctx va : Nat} {perm : Perm} (h : s.Inv) : (s.translate core ctx va perm).2.Inv := by
  unfold State.translate
  extract_lets hit dropped
  have hd : dropped.Inv := by
    unfold dropped
    clear_value hit
    split
    · exact h.modCore
    · exact h
  split
  · exact h
  · split
    · rename_i e
      split <;> exact (hd.walk.after e).modCore
    · rename_i e
      exact hd.walk.after e
    · rename_i e
      exact hd.walk.after e

theorem State.Inv.translateNoCache {ctx va : Nat} {perm : Perm} (h : s.Inv) : (s.translateNoCache ctx va perm).2.Inv := by
  simp only [State.translateNoCache]
  split
  · rename_i e
    split <;> exact h.walk.after e
  · rename_i e
    exact h.walk.after e
  · rename_i e
    exact h.walk.after e

theorem State.Inv.virtRead {ctx va n : Nat} (h : s.Inv) : (s.virtRead ctx va n).2.Inv := by
  induction n generalizing s va with
  | zero => exact h
  | succ n ih =>
    simp only [State.virtRead]
    split
    · rename_i e
      split <;> exact (ih (h.translateNoCache.after e).homeRead).after ‹_›
    · rename_i e
      exact h.translateNoCache.after e

theorem State.Inv.virtWrite {ctx va n v : Nat} (h : s.Inv) : (s.virtWrite ctx va n v).2.Inv := by
  induction n generalizing s va v with
  | zero => exact h
  | succ n ih =>
    simp only [State.virtWrite]
    split
    · rename_i e
      exact ih (h.translateNoCache.after e).homeWrite
    · rename_i e
      exact ih (h.translateNoCache.after e)

theorem State.Inv.gather {core ctx : Nat} {ms : List Miss} (h : s.Inv) :
    SomeInv (s.gather core ctx ms) := .map fun _ => h.modCore

theorem State.Inv.holdOn {fid core ctx : Nat} {ms : List Miss} (h : s.Inv) : (s.holdOn fid core ctx ms).Inv := by
  simp only [State.holdOn]
  split
  · rename_i e
    exact (h.gather.of_some e).leave
  · exact h.leave

theorem State.Inv.fetchLine {core lid va : Nat} (h : s.Inv) : (s.fetchLine core lid va).2.Inv := by
  simp only [State.fetchLine]
  split
  · exact h
  · split
    · rename_i e
      exact h.translate.after e
    · rename_i e
      exact h.translate.after e
    · rename_i e
      split
      · exact h.translate.after e
      · exact (h.translate.after e).homeRead.modLaunch

theorem State.Inv.fetch {core : Nat} {l : Launch} {ip : Nat} (h : s.Inv) : (s.fetch core l ip).2.Inv := by
  simp only [State.fetch]
  split
  · rename_i e
    split
    · exact h.fetchLine.after e
    · exact (h.fetchLine.after e).fetchLine
  · exact h.fetchLine

/-! ## Machine/Integer -/

theorem Iss.Inv.put {x : Iss} {lam n : Nat} {g : Nat → Nat} (h : x.Inv) : (x.put lam n g).Inv := h.fixed
theorem Iss.Inv.map1 {x : Iss} {g : Ty → Int → Int} (h : x.Inv) : (x.map1 g).Inv := h.put
theorem Iss.Inv.map2 {x : Iss} {g : Ty → Int → Int → Int} (h : x.Inv) : (x.map2 g).Inv := h.put
theorem Iss.Inv.map2Var {x : Iss} {g : Ty → Int → Int → Int} (h : x.Inv) : (x.map2Var g).Inv := h.variable
theorem Iss.Inv.map3 {x : Iss} {g : Ty → Int → Int → Int → Int} (h : x.Inv) : (x.map3 g).Inv := h.put
theorem Iss.Inv.shift {x : Iss} {g : Ty → Int → Nat → Int} (h : x.Inv) : (x.shift g).Inv := h.put
theorem Iss.Inv.bits1 {x : Iss} {dw : Nat} {g : Ty → Nat → Nat} (h : x.Inv) : (x.bits1 dw g).Inv := h.put
theorem Iss.Inv.bits2 {x : Iss} {g : Ty → Nat → Nat → Nat} (h : x.Inv) : (x.bits2 g).Inv := h.put
theorem Iss.Inv.carry {x : Iss} {t : Nat → Int} (h : x.Inv) : (x.carry t).Inv := h.fixed
theorem Iss.Inv.putPred {x : Iss} {g : Nat → Bool} (h : x.Inv) : (x.putPred g).Inv := h.put

/-! ## Machine/Float -/

theorem Iss.Inv.putFlags {x : Iss} {lam n : Nat} {g : Nat → Nat × Nat} (h : x.Inv) : (x.putFlags lam n g).Inv := h.fixed
theorem Iss.Inv.putFlagsVar {x : Iss} {n : Nat} {g : Nat → Nat × Nat} (h : x.Inv) : (x.putFlagsVar n g).Inv := h.variable

/-! ## Machine/Spad -/

theorem State.Inv.spadStore {team off n v : Nat} (h : s.Inv) : (s.spadStore team off n v).Inv := h.modTeam.progressTeam
theorem State.Inv.wakeCb {team b : Nat} (h : s.Inv) : (s.wakeCb team b).Inv := .foldl (fun _ _ h => .ite h.wake h) h
theorem State.Inv.setCb {team b : Nat} {g : CBuf → CBuf} (h : s.Inv) : (s.setCb team b g).Inv := h.modTeam
theorem State.Inv.liveDraw {core : Nat} (h : s.Inv) : (s.liveDraw core).after.Inv := h.of_mem rfl

theorem State.Inv.drawNow {t : Team} {mode : Nat} {d : Drawn} (h : s.Inv) (e : s.drawNow t mode = some d) : d.after.Inv := by
  simp only [State.drawNow] at e
  split at e
  · cases e
    exact h.liveDraw
  · split at e
    · split at e
      · contradiction
      · cases e
        exact h.liveDraw.spadStore.setCb.wakeCb
    · split at e
      · contradiction
      · cases e
        exact h.setCb.wakeCb

theorem State.Inv.serveDraw {d : NoiseDraw} {w : Nat → Nat} (h : s.Inv) : (s.serveDraw d w).Inv := h.of_mem rfl

theorem State.Inv.serveDraws {core fuel : Nat} (h : s.Inv) : (State.serveDraws core fuel s).Inv := by
  induction fuel generalizing s with
  | zero => exact h
  | succ n ih =>
    simp only [State.serveDraws]
    split
    · exact h
    · split
      · exact h
      · rename_i e
        obtain ⟨t, -, e⟩ := Option.bind_eq_some_iff.mp e
        exact ih (h.drawNow e).serveDraw

theorem State.Inv.lookDraws {core : Nat} (h : s.Inv) : (s.lookDraws core).Inv := h.serveDraws

theorem State.Inv.modCb {team b : Nat} {g : CBuf → CBuf} (h : s.Inv) : (s.modCb team b g).Inv := by
  simp only [State.modCb]
  refine .wakeCb ?_
  split
  · exact .ite h.setCb.lookDraws h.setCb
  · exact h.setCb

/-! ## Machine/Convert -/

theorem Iss.Inv.draw {x : Iss} {d : Drawn} (h : x.Inv) (e : x.draw = .made d) : d.after.Inv := by
  simp only [Iss.draw] at e
  split at e
  · contradiction
  · split at e
    · contradiction
    · split at e
      · contradiction
      · split at e
        · contradiction
        · split at e
          · rename_i e'
            cases e
            exact h.state.drawNow e'
          · contradiction

theorem Iss.Inv.queueDraw {x : Iss} {use : NoiseUse} {src old : Nat → Nat} (h : x.Inv) : (x.queueDraw use src old).Inv := by
  simp only [Iss.queueDraw]
  refine .next ?_
  simp only [State.Inv]
  exact h.state.addResult

theorem Iss.Inv.withDraw {x : Iss} {use : NoiseUse} {src old : Nat → Nat} (h : x.Inv) : (x.withDraw use src old).Inv := by
  simp only [Iss.withDraw]
  split
  · exact .badValue
  · exact .trap
  · exact h.queueDraw
  · rename_i e
    exact Iss.Inv.variable (h.draw e)

/-! ## Machine/Fabric -/

theorem State.Inv.emit {k : Wire} {bulk : Bool} {dpkg tag : Nat} {place : Nat × Nat × Nat} {key spec : Nat}
    {payload : List Byte} {port : Option Nat}
    (h : s.Inv) : (s.emit k bulk dpkg tag place key spec payload port).Inv := h.of_mem rfl

theorem State.Inv.emitAccess {k : Wire} {bulk : Bool} {tag : Nat} {p : Place} (h : s.Inv) :
    (s.emitAccess k bulk tag p).Inv := .ite h h.emit

/-! ## Machine/Access -/

theorem Iss.Inv.bufTrap {x : Iss} {k : Nat} {b : Buf} {perms : List Perm} {flat : Bool} :
    FoundInv (x.bufTrap k b perms flat) := by
  simp only [Iss.bufTrap]
  split
  · exact .some .trap
  · split
    · exact .some .trap
    · exact .none

theorem Iss.Inv.elemTrap {_x : Iss} {b : Buf} {es : List Elem} {z detail : Nat} :
    FoundInv (_x.elemTrap b es z detail) := .ite (.some .trap) (.ite (.some .trap) (.ite (.some .trap) .none))

theorem State.Inv.translateLines {core ctx : Nat} {perm : Perm} {ls : List VLine} (h : s.Inv) :
    (s.translateLines core ctx perm ls).2.Inv := by
  induction ls generalizing s with
  | nil => exact h
  | cons l ls ih => exact ih h.translate

theorem Iss.Inv.held {x : Iss} {hold : Hold} (h : x.Inv) : FoundInv (x.held hold) := by
  simp only [Iss.held]
  split
  · exact .none
  · exact .some (.hold h.state)
  · exact .some (.hold h.state.leave)

theorem State.Inv.wakeLog (h : s.Inv) : (s.wakeLog).Inv := .foldl (fun _ _ h => .ite h.wakeHeldFibre h) h

theorem State.Inv.wakeHeldFor {core : Nat} {p : Waits → Bool} (h : s.Inv) :
    (s.wakeHeldFor core p).Inv := .foldl (fun _ _ h => .ite h.wakeHeldFibre h) h

theorem State.Inv.freeRows {core : Nat} (h : s.Inv) : (s.freeRows core).Inv := h.of_mem rfl
theorem State.Inv.wakeRoom {core : Nat} (h : s.Inv) : (s.wakeRoom core).Inv := h.wakeHeldFor.freeRows
theorem State.Inv.wakeLogRoom {core : Nat} (h : s.Inv) : (s.wakeLogRoom core).Inv := h.wakeHeldFor.freeRows
theorem State.Inv.countLineAt {tower team : Nat} {p : Place} (h : s.Inv) : (s.countLineAt tower team p).Inv := h.modTeam

theorem State.Inv.countLine {team : Nat} {p : Place} (h : s.Inv) : (s.countLine team p).Inv := by
  simp only [State.countLine]
  split
  · exact h.countLineAt
  · exact h

theorem State.Inv.addReqs {op team core : Nat} {ps : List (Place × List Seg)} (h : s.Inv) :
    (s.addReqs op team core ps).Inv := by
  induction ps generalizing s with
  | nil => exact h
  | cons p ps ih =>
    simp only [State.addReqs]
    exact ih (.countLine (h.of_mem rfl))

theorem State.Inv.sendOp {x : Iss} {a : Ask} {ps : List (Place × List Seg)} (h : s.Inv) : (x.sendOp s a ps).Inv := by
  simp only [Iss.sendOp]
  refine .addReqs ?_
  simp only [State.Inv]
  refine State.Inv.fresh ?_
  split
  · exact h.addResult
  · exact h

theorem State.Inv.logLines {x : Iss} {a : Ask} {b : Buf} {ls : List VLine} {owner : Option Nat} (h : s.Inv) :
    SomeInv (x.logLines s a b ls owner) := by
  simp only [Iss.logLines]
  exact .ite .none (.some (.foldl (fun _ _ h => h.of_mem rfl) h))

theorem Iss.Inv.translateAndSend {x : Iss} {a : Ask} {b : Buf} {ps : List (Nat × Seg)} {finish : State → Act} (h : x.Inv)
    (hf : ∀ s : State, s.Inv → (finish s).Inv) : (x.translateAndSend a b ps finish).Inv := by
  simp only [Iss.translateAndSend]
  split
  · exact .fails h.state.translateLines
  · split
    · exact hf _ h.state.translateLines.sendOp
    · split
      · exact .hold h.state.translateLines.holdOn
      · refine .ite (.hold h.state) (.ite (.hold h.state) ?_)
        split
        · exact .hold h.state.translateLines.leave
        · rename_i e
          have hg := h.state.translateLines.gather.of_some e
          split
          · exact .hold hg.leave
          · rename_i e
            exact hf _ (hg.logLines.of_some e).sendOp

/-! ## Machine/Requests -/

theorem State.Inv.promoteHeard {fid : Nat} (h : s.Inv) : (s.promoteHeard fid).Inv := by
  simp only [State.promoteHeard]
  split
  · exact .modFibre (.foldl (fun _ _ h => h.promote) h)
  · exact h

theorem State.Inv.acquireAction {o : MemOp} (h : s.Inv) :
    (s.acquireAction o).Inv := .ite (.invalidateAll (.ite h.promoteHeard h)) h

theorem State.Inv.releaseAction {o : MemOp} (h : s.Inv) : (s.releaseAction o).Inv := .ite h.writeBackAll h

theorem State.Inv.settleOp {o : MemOp} (h : s.Inv) : (s.settleOp o).Inv := by
  simp only [State.settleOp]
  split
  · exact .ite h (.ite (h.releaseAction.acquireAction.of_mem rfl) (h.releaseAction.acquireAction.of_mem rfl))
  · exact .ite h (.ite (h.acquireAction.of_mem rfl) (h.acquireAction.of_mem rfl))

theorem State.Inv.arrive {f : Fibre} {t : Team} {which : Nat} {lanes : Mask} (h : s.Inv) : (s.arrive f t which lanes).Inv := by
  simp only [State.arrive]
  split
  · exact .checkFbar (.modFibre (.modTeam (.ite h.writeBackAll h)))
  · exact .checkCbar (.modFibre (.modTeam (.ite h.writeBackAll h)))
  · exact .modFibre (.modTeam (.ite h.writeBackAll h))
  · exact .checkBar (.modFibre (.modTeam (.ite h.writeBackAll h)))

theorem State.Inv.comes {fid : Nat} (h : s.Inv) : (s.comes fid).Inv := by
  simp only [State.comes]
  split
  · exact h
  · split
    · split
      · split
        · exact h.arrive
        · exact h
      · exact h
    · exact h

theorem State.Inv.settle {fid : Nat} (h : s.Inv) : (s.settle fid).Inv := .comes (.foldl (fun _ _ h => h.settleOp) h)

theorem State.Inv.failOp {o : MemOp} {cause detail : Nat} {mask : Mask} (h : s.Inv) :
    (s.failOp o cause detail mask).Inv := .wakeIfDone (.settle (.postTrap (.ite (.modFibre (h.of_mem rfl)) (h.of_mem rfl))))

theorem State.Inv.modReq {r : Nat} {g : Req → Req} (h : s.Inv) : (s.modReq r g).Inv := h.of_mem rfl
theorem State.Inv.detect {r : Req} {o : MemOp} (h : s.Inv) : (s.detect r o).Inv := .ite (h.of_mem rfl) (h.of_mem rfl)
theorem State.Inv.emitReq {r : Req} {o : MemOp} (h : s.Inv) : (s.emitReq r o).Inv := .ite h h.emit
theorem State.Inv.sendReq {r : Req} {o : MemOp} (h : s.Inv) : (s.sendReq r o).Inv := h.modReq.detect.emitReq
theorem State.Inv.l1Allocate {o : MemOp} {line : Nat} (h : s.Inv) : (s.l1Allocate o line).Inv := .ite h.fillLine h

theorem State.Inv.readSeg {core line : Nat} {l1 : Bool} {g : Seg} (h : s.Inv) : (s.readSeg core line l1 g).2.Inv := by
  simp only [State.readSeg]
  split
  · exact h
  · exact h.homeRead

theorem State.Inv.putBits {core line : Nat} {l1 tag : Bool} {key bit nbits v : Nat} (h : s.Inv) :
    (s.putBits core line l1 tag key bit nbits v).Inv := .ite (.wakeWhere (.ite h.modLine h)) (.homeWriteBits (.ite h.modLine h))

theorem State.Inv.writeSeg {core line : Nat} {l1 tag : Bool} {g : Seg} (h : s.Inv) :
    (s.writeSeg core line l1 tag g).Inv := h.putBits

theorem State.Inv.performSeg {o : MemOp} {line bank : Nat} {l1 : Bool} {g : Seg} (h : s.Inv) :
    (s.performSeg o line bank l1 g).2.Inv := by
  simp only [State.performSeg]
  split
  · exact h.writeSeg
  · exact h.homeXadd
  · exact h.homeXadd
  · exact h.homeXadd
  · exact h
  · exact h.readSeg
  · exact h.readSeg
  · exact h.readSeg
  · exact h.readSeg
  · exact h.closeExacts.homeWrite

theorem State.Inv.performSegs {o : MemOp} {line bank : Nat} {l1 : Bool} {gs : List Seg} (h : s.Inv) :
    (s.performSegs o line bank l1 gs).2.Inv := by
  induction gs generalizing s with
  | nil => exact h
  | cons g gs ih => exact ih h.performSeg

theorem State.Inv.hear {o : MemOp} {line : Nat} (h : s.Inv) : (s.hear o line).Inv := by
  simp only [State.hear]
  split
  · exact h
  · split
    · exact .ite h h.modFibre
    · exact h

theorem State.Inv.beforePerform {o : MemOp} {line : Nat} (h : s.Inv) : (s.beforePerform o line).Inv := by
  unfold State.beforePerform
  extract_lets released written cleaned
  have hr : released.Inv := h.releaseAction
  have hc : cleaned.Inv := .ite hr (.ite hr.writeBackAt hr.writeBackAt.dropLine)
  exact .ite hc.serveTag hc.hear

theorem State.Inv.afterRead {o : MemOp} {line bank v : Nat} (h : s.Inv) : (s.afterRead o line bank v).Inv := by
  unfold State.afterRead
  extract_lets watch waits
  generalize o.kind = k
  cases k with
  | watch e =>
    cases waits with
    | waddr _ lanes => exact .ite h.wakePast h.addWatch
    | _ => exact h
  | sigw t =>
    cases waits with
    | watch => exact .ite h.wakePast h.addWatch
    | _ => exact h
  | collw test =>
    cases test
    · cases waits with
      | watch => exact .ite h.writeReg.wakePast h.addWatch
      | _ => exact h
    · exact h
  | _ => exact h

theorem State.Inv.performPrefetch {r : Req} {o : MemOp} {l1 : Bool} (h : s.Inv) :
    (s.performPrefetch r o l1).Inv := .settle (.modReq (.ite h.fillLine h))

theorem State.Inv.performReq {r : Req} {o : MemOp} (h : s.Inv) : (s.performReq r o).Inv := by
  unfold State.performReq
  extract_lets bank s1 s2 l1 s3
  split
  · exact h.performPrefetch
  · refine .ite h.failOp ?_
    have h2 : s2.Inv := h.modPkg.beforePerform
    have h3 : s3.Inv := .ite (.ite h2 h2.stage) (.ite h2.l1Allocate h2)
    have hp := h3.performSegs (o := o) (line := r.line) (bank := bank) (l1 := l1) (gs := r.segs)
    split
    rename_i e
    have h4 := hp.after e
    extract_lets s5 got s6 s7 s8
    have h5 : s5.Inv := .ite h4.addTag h4
    have h6 : s6.Inv := h5.modReq
    have h8 : s8.Inv := .settle (.ite h6.progressTeam h6)
    split
    · exact h8.afterRead
    · exact h8

theorem State.Inv.deliver {r fid : Nat} {ws : List RegWrite} {fl : Nat} (h : s.Inv) :
    (s.deliver r fid ws fl).Inv := .comes (.wakeIfDone (.raiseFlags (.writeRegs (h.of_mem rfl))))

theorem State.Inv.answerOp {o : MemOp} {r : Nat} (h : s.Inv) : (s.answerOp o r).Inv := .deliver (h.of_mem rfl)

theorem State.Inv.openBytes {ctx va n : Nat} (h : s.Inv) : (s.openBytes ctx va n).2.Inv := by
  induction n generalizing s va with
  | zero => exact h
  | succ n ih =>
    simp only [State.openBytes]
    split
    · rename_i e
      have h := h.translateNoCache.after e
      split
      · rename_i e
        exact ih (h.translateNoCache.after e)
      · rename_i e
        exact h.translateNoCache.after e
    · rename_i e
      exact h.translateNoCache.after e

theorem State.Inv.logEntry {l : Launch} {args : List Word} (h : s.Inv) : (s.logEntry l args).2.Inv := by
  simp only [State.logEntry]
  split
  · exact h
  · split
    · rename_i e
      exact h.openBytes.after e
    · rename_i e
      have h := h.openBytes.after e
      split
      · rename_i e
        exact h.virtRead.after e
      · rename_i e
        have h := h.virtRead.after e
        split
        · exact h
        · split
          · rename_i e
            exact h.openBytes.after e
          · rename_i e
            exact (h.openBytes.after e).virtWrite.virtWrite

theorem State.Inv.serve {c : FwCall} (h : s.Inv) : (s.serve c).2.Inv := by
  simp only [State.serve]
  split
  · exact h
  · exact h
  · split
    · exact h
    · split
      · rename_i e
        exact h.logEntry.after e
      · rename_i e
        exact h.logEntry.after e
  · exact h

theorem State.Inv.answerCall {c : FwCall} (h : s.Inv) : (s.answerCall c).Inv := by
  simp only [State.answerCall]
  refine .deliver ?_
  split
  · exact .invalidateAll (h.serve.of_mem rfl)
  · exact h.serve.of_mem rfl

/-! ## Machine/Memory -/

theorem State.Inv.sent {x : Iss} (h : s.Inv) : (x.sent s).Inv := .next h.settle

theorem Iss.Inv.access {x : Iss} {hold : Hold} {perm : Perm} {code detail : Nat} {a : Ask} {data data2 : Nat → BitVec 128}
    (h : x.Inv) : (x.access hold perm code detail a data data2).Inv := by
  simp only [Iss.access]
  split
  · rename_i e
    exact h.held.of_some e
  · split
    · rename_i e
      exact Iss.Inv.bufTrap.of_some e
    · split
      · rename_i e
        exact Iss.Inv.elemTrap.of_some e
      · exact h.translateAndSend fun _ h => h.sent

theorem Iss.Inv.load {x : Iss} (h : x.Inv) : (x.load).Inv := h.access

theorem State.Inv.namedLines {x : Iss} {perm : Perm} {b : Buf} (h : s.Inv) : (x.namedLines perm b s).2.Inv := by
  simp only [Iss.namedLines]
  exact h.translateLines

theorem Iss.Inv.prefetch {x : Iss} {l1 : Bool} (h : x.Inv) : (x.prefetch l1).Inv := by
  simp only [Iss.prefetch]
  split
  · rename_i e
    exact h.held.of_some e
  · split
    · rename_i e
      exact Iss.Inv.bufTrap.of_some e
    · exact .ite (.next h.state) h.state.namedLines.sendOp.sent

theorem Iss.Inv.afterAll {x : Iss} {k : Iss → Act} (h : x.Inv) (hk : (k x).Inv) : (x.afterAll k).Inv := by
  simp only [Iss.afterAll]
  split
  · rename_i e
    exact h.held.of_some e
  · exact .ite (.hold h.state) hk

theorem Iss.Inv.cacheLines {x : Iss} {g : State → Place → State} (h : x.Inv) (hg : ∀ s p, s.Inv → (g s p).Inv) :
    (x.cacheLines g).Inv := by
  simp only [Iss.cacheLines]
  refine h.afterAll ?_
  split
  · rename_i e
    exact Iss.Inv.bufTrap.of_some e
  · exact .next (.foldl (fun _ _ h => hg _ _ h) h.state.namedLines)

/-! ## Machine/Scratch -/

theorem Iss.Inv.spTrap {x : Iss} {rk : Option Nat} {as : List SpAcc} {z : Nat} :
    FoundInv (x.spTrap rk as z) := .ite (.some .badValue) (.ite (.some .trap) (.ite (.some .trap) .none))

theorem Iss.Inv.spad {x : Iss} {hold : Hold} {rk : Option Nat} {addr off z : Nat} {whole : Bool} {body : List SpAcc → Act}
    (h : x.Inv)
    (hb : ∀ as, (body as).Inv) : (x.spad hold rk addr off z whole body).Inv := by
  simp only [Iss.spad]
  split
  · rename_i e
    exact h.held.of_some e
  · split
    · rename_i e
      exact Iss.Inv.spTrap.of_some e
    · exact .ite .trap (hb _)

theorem Iss.Inv.spLoad {x : Iss} {rk : Option Nat} {addr off : Nat} (h : x.Inv) : (x.spLoad rk addr off).Inv := by
  simp only [Iss.spLoad]
  exact h.spad fun _ => h.variable

theorem Iss.Inv.spStore {x : Iss} {rk : Option Nat} {addr off : Nat} (h : x.Inv) : (x.spStore rk addr off).Inv := by
  simp only [Iss.spStore]
  exact h.spad fun _ => .next (.foldl (fun _ _ h => h.spadStore) h.state)

theorem State.Inv.feLeave {team w fid lane : Nat} {handler : Bool} (h : s.Inv) :
    (s.feLeave team w fid lane handler).Inv := h.modTeam.modFibre

theorem State.Inv.feWait {team w fid lane : Nat} {handler full : Bool} (h : s.Inv) :
    (s.feWait team w fid lane handler full).Inv := h.modTeam.modFibre.feServe

theorem State.Inv.feTurn {team w fid lane : Nat} {handler : Bool} (h : s.Inv) :
    (s.feTurn team w fid lane handler).Inv := .ite (.feLook (h.of_mem rfl)) h

theorem State.Inv.feLane {fid : Nat} {handler load : Bool} {data : Nat → Nat} {a : SpAcc} (h : s.Inv) :
    (s.feLane fid handler load data a).1.Inv := by
  simp only [State.feLane]
  split
  · exact h.feTurn
  · split
    · exact .feServe (.feLeave (.modTeam (.ite h.feTurn.progressTeam h.feTurn.spadStore)))
    · exact h.feTurn.feWait

theorem State.Inv.feLanes {fid : Nat} {handler load : Bool} {data : Nat → Nat} {as : List SpAcc} (h : s.Inv) :
    (s.feLanes fid handler load data as).2.Inv := by
  induction as generalizing s with
  | nil => exact h
  | cons a as ih => exact ih h.feLane

theorem Iss.Inv.fullEmpty {x : Iss} {load : Bool} (h : x.Inv) : (x.fullEmpty load).Inv := by
  unfold Iss.fullEmpty
  refine h.spad fun as => ?_
  extract_lets released served
  have hr : released.Inv := .ite h.state h.state.writeBackAll
  exact .ite (.moved hr.feLanes.advance.invalidateAll.addResult) (.moved hr.feLanes.advance)

theorem State.Inv.feUnreserve {team w : Nat} (h : s.Inv) : (s.feUnreserve team w).Inv := by
  simp only [State.feUnreserve]
  split
  · exact h
  · split
    · exact h
    · exact h.modTeam.modFibre

theorem State.Inv.fsetLane {full : Bool} {a : SpAcc} (h : s.Inv) : (s.fsetLane full a).Inv := by
  simp only [State.fsetLane]
  split
  · exact h
  · exact .feServe (.modTeam (.ite h.feUnreserve h))

theorem Iss.Inv.fset {x : Iss} {full : Bool} (h : x.Inv) :
    (x.fset full).Inv := h.spad fun _ => .next (.foldl (fun _ _ h => h.fsetLane) h.state)

theorem Iss.Inv.cbTrap {x : Iss} : FoundInv (x.cbTrap) := .ite (.some .badValue) (.ite (.some .trap) .none)

theorem Iss.Inv.cbcfg {x : Iss} (h : x.Inv) : (x.cbcfg).Inv :=
  .ite .badValue (.ite .badValue (.ite .badValue (.ite .badValue (.ite .badValue (.ite .trap (.next h.state.modCb))))))

theorem Iss.Inv.cbTake {x : Iss} {fill : Bool} (h : x.Inv) : (x.cbTake fill).Inv := by
  simp only [Iss.cbTake]
  split
  · rename_i e
    exact h.held.of_some e
  · split
    · rename_i e
      exact Iss.Inv.cbTrap.of_some e
    · exact .ite h.state.park (.next h.state.modCb.addResult)

theorem Iss.Inv.cbGive {x : Iss} (h : x.Inv) : (x.cbGive).Inv := by
  simp only [Iss.cbGive]
  split
  · rename_i e
    exact h.held.of_some e
  · split
    · rename_i e
      exact Iss.Inv.cbTrap.of_some e
    · exact .ite .trap (.next h.state.modCb)

theorem Iss.Inv.cbGiveFill {x : Iss} (h : x.Inv) : (x.cbGiveFill).Inv := by
  simp only [Iss.cbGiveFill]
  split
  · rename_i e
    exact h.held.of_some e
  · split
    · rename_i e
      exact Iss.Inv.cbTrap.of_some e
    · split
      · exact .trap
      · exact .ite (.hold h.state) (.next h.state.modCb)

theorem State.Inv.spadRmws {x : Iss} {as : List SpAcc} (h : s.Inv) : (x.spadRmws as s).2.Inv := by
  induction as generalizing s with
  | nil => exact h
  | cons a as ih => exact ih h.spadStore

theorem State.Inv.spMeet {fid core : Nat} {serve : Bool} {a : SpAcc} (h : s.Inv) : (s.spMeet fid core serve a).Inv := by
  simp only [State.spMeet]
  split
  · exact h
  · exact .ite h (.ite h.promote.modTeam h.modFibre)

theorem State.Inv.spTag {fid core : Nat} {a : SpAcc} (h : s.Inv) : (s.spTag fid core a).Inv := h.spMeet.modTeam

theorem Iss.Inv.spadAtomic {x : Iss} {returns : Bool} (h : x.Inv) : (x.spadAtomic returns).Inv := by
  unfold Iss.spadAtomic
  extract_lets order wide c released
  refine h.spad fun as => ?_
  extract_lets met tagged
  have hr : released.Inv := .ite h.state.writeBackAll h.state
  have hm : met.Inv := .foldl (fun _ _ h => h.spMeet) hr
  have ht : tagged.Inv := .ite (.foldl (fun _ _ h => h.spTag) hm) hm
  split
  rename_i e
  have h := ht.spadRmws.after e
  exact .ite (.next (.addResult (.ite h.invalidateAll h))) (.next (.ite h.invalidateAll h))

/-! ## Machine/Atomic -/

theorem Iss.Inv.rmw {x : Iss} {kind : MemKind} {order : Order} {nbits : Nat} {sg returns : Bool} {data : Nat → Nat × Nat}
    (h : x.Inv) : (x.rmw kind order nbits sg returns data).Inv := h.access

/-! ## Machine/Sync -/

theorem Iss.Inv.fence {x : Iss} {order : Order} (h : x.Inv) : (x.fence order).Inv := by
  simp only [Iss.fence]
  split
  · rename_i e
    exact h.held.of_some e
  · exact State.Inv.sent (.ite (.modFibre (h.state.fresh.of_mem rfl)) (h.state.fresh.of_mem rfl))

theorem Iss.Inv.qfence {x : Iss} (h : x.Inv) : (x.qfence).Inv := .next (.ite h.state.modTeam.modFibre h.state.modTeam)

theorem Iss.Inv.arriving {x : Iss} {which : Nat} (h : x.Inv) :
    (x.arriving which).Inv := .ite (.hold h.state.leave) (.moved h.state.leave.comes)

theorem Iss.Inv.teamBarrier {x : Iss} {waits : Bool} (h : x.Inv) : (x.teamBarrier waits).Inv := by
  simp only [Iss.teamBarrier]
  split
  · exact h.state.park
  · split
    · exact h.arriving
    · split
      · rename_i e
        exact h.held.of_some e
      · exact .next h.state.modTeam.modFibre.checkBar

theorem Iss.Inv.watchWord {x : Iss} {es : List Elem} {b : Buf} {kind : MemKind} {order : Order} {scope dreg : Nat} {w : Waits}
    (h : x.Inv) : (x.watchWord es b kind order scope dreg w).Inv := h.translateAndSend fun _ h => h.park

theorem Iss.Inv.waddr {x : Iss} (h : x.Inv) : (x.waddr).Inv := by
  simp only [Iss.waddr]
  split
  · rename_i e
    exact h.held.of_some e
  · split
    · exact .badValue
    · split
      · rename_i e
        exact Iss.Inv.bufTrap.of_some e
      · split
        · rename_i e
          exact Iss.Inv.elemTrap.of_some e
        · exact .ite (.next h.state) h.watchWord

theorem State.Inv.dropWatches {f : Nat} (h : s.Inv) : (s.dropWatches f).Inv := .settle (h.of_mem rfl)
theorem State.Inv.predResult {x : Iss} {ok : Bool} (h : s.Inv) : (x.predResult s ok).Inv := .next h.addResult

theorem Iss.Inv.fgive {x : Iss} (h : x.Inv) : (x.fgive).Inv :=
  .ite .badValue (.ite .badValue (.ite .badValue (.ite .badValue (.ite .badValue (.ite (.hold h.state)
    (.ite h.state.predResult h.state.modFibre.modFibre.predResult))))))

theorem State.Inv.claimFrom {giver taker : Nat} (h : s.Inv) : (s.claimFrom giver taker).Inv := h.modFibre

theorem Iss.Inv.fclaim {x : Iss} {set_ : Bool} (h : x.Inv) : (x.fclaim set_).Inv := by
  unfold Iss.fclaim
  extract_lets v mb w base size role cleared claimed next
  have hc : claimed.Inv := by
    unfold claimed
    split
    · exact h.state.writeReg.claimFrom
    · exact h.state.writeReg
  exact .ite h.state.predResult (.ite .badValue (State.Inv.predResult (.ite hc.modFibre hc)))

/-! ## Machine/Engine -/

theorem Iss.Inv.intoQueue {x : Iss} {q : Nat} {k : Iss → Act} (h : x.Inv) (hk : (k x).Inv) : (x.intoQueue q k).Inv :=
  .ite (.hold h.state) hk

theorem State.Inv.enqueueOn {x : Iss} {w : Work} (h : s.Inv) : (x.enqueueOn s w).Inv := by
  simp only [Iss.enqueueOn]
  refine .modTeam (.fresh ?_)
  split
  · exact h.addResult
  · exact h

theorem Iss.Inv.enqueue {x : Iss} {w : Work} (h : x.Inv) : (x.enqueue w).Inv := .next h.state.enqueueOn
theorem State.Inv.modOp {team op : Nat} {g : EngOp → EngOp} (h : s.Inv) : (s.modOp team op g).Inv := h.modTeam

theorem State.Inv.finishResult {fid : Nat} {r : Option Nat} {ws : List RegWrite} (h : s.Inv) :
    (s.finishResult fid r ws).Inv := by
  simp only [State.finishResult]
  split
  · exact h
  · exact .ite (.wakeIfDone (h.of_mem rfl)) (h.of_mem rfl)

theorem State.Inv.answerWaits {team : Nat} (h : s.Inv) : (s.answerWaits team).Inv := by
  simp only [State.answerWaits]
  split
  · exact h
  · refine .foldl (fun s x h => ?_) h
    split
    · exact h.modTeam.finishResult
    · exact h

theorem State.Inv.releaseLease {team : Nat} (h : s.Inv) : (s.releaseLease team).Inv := h.modTeam

theorem State.Inv.engDone {team : Nat} {o : EngOp} {ws : List RegWrite} (h : s.Inv) : (s.engDone team o ws).Inv := by
  unfold State.engDone
  extract_lets ended finished woken settled
  have hs : settled.Inv := h.modTeam.finishResult.releaseLease.answerWaits.wakeLog.settle
  exact .ite hs.progressTeam hs

theorem State.Inv.engTrap {team : Nat} {o : EngOp} {cause detail offset : Nat} (h : s.Inv) :
    (s.engTrap team o cause detail offset).Inv := h.engDone.postTrap

theorem State.Inv.endTurn {s : State} {team core ctx : Nat} {o : EngOp} {t : Turn} (h : s.Inv) (ht : t.Inv) :
    (s.endTurn team o core ctx t).Inv := by
  cases ht with
  | more h => exact .ite h.modOp.progressTeam h.modOp
  | done h => exact h.engDone
  | miss h =>
    simp only [State.endTurn]
    split
    · rename_i e
      exact (h.gather.of_some e).modOp
    · exact h
  | waits _ => exact h
  | stuck h => exact h.modOp
  | trap h => exact h.engTrap

theorem Eng.reach_inv {g : Eng} {va : Nat} {perm : Perm} {b : Buf} {count : Bool} {k : Place → State → Io} (h : s.Inv)
    (hk : ∀ (p : Place) (s : State), s.Inv → (k p s).Inv) : (g.reach s va perm b count k).Inv := by
  simp only [Eng.reach]
  split
  · exact .stop (.trap h)
  · split
    · rename_i e
      exact .stop (.trap (h.modOp.translate.after e))
    · rename_i e
      exact .stop (.miss (h.modOp.translate.after e))
    · rename_i e
      have h := h.modOp.translate.after e
      exact .ite (.stop (.waits h)) (hk _ _ (.ite h.countLineAt.modOp h))

theorem Eng.read_inv {g : Eng} {va n : Nat} {b : Buf} {l1 count : Bool} (h : s.Inv) : (g.read s va n b l1 count).Inv :=
  Eng.reach_inv h (fun _ _ h => .ite (.stop (.trap h.emitAccess)) (.ok (.readSeg (.ite h.emitAccess h.emitAccess.writeBackAt))))

theorem Eng.write_inv {g : Eng} {va n v : Nat} {b : Buf} {l1 count whole : Bool} (h : s.Inv) :
    (g.write s va n v b l1 count whole).Inv :=
  Eng.reach_inv h fun _ _ h =>
    .ite (.stop (.trap h.emitAccess)) (.ok (.putBits (.ite h.emitAccess.modPkg h.emitAccess.modPkg.writeBackAt)))

theorem Eng.item_inv {g : Eng} {b : Buf} {ps : List Piece} {wr : Option Nat} {fin : State → Nat → Turn} (h : s.Inv)
    (hf : ∀ (s : State) (v : Nat), s.Inv → (fin s v).Inv) : (g.item s b ps wr fin).Inv := by
  simp only [Eng.item]
  split
  · exact hf _ _ h
  · split
    · exact .ite (hf _ _ h) (.more h)
    · split
      · split
        · rename_i e
          have h := (Eng.write_inv h).of_ok e
          exact .ite (hf _ _ h) (.more h)
        · rename_i e
          exact (Eng.write_inv h).of_stop e
      · split
        · rename_i e
          have h := (Eng.read_inv h).of_ok e
          exact .ite (hf _ _ h) (.more h)
        · rename_i e
          exact (Eng.read_inv h).of_stop e

theorem Iss.Inv.pieceTrap {x : Iss} {b : Buf} {ps : List Piece} {detail z : Nat} : FoundInv (x.pieceTrap b ps detail z) := by
  simp only [Iss.pieceTrap]
  split
  · exact .some .trap
  · exact .ite (.some .trap) (.ite (.some .trap) .none)

theorem State.Inv.engTurn {team q : Nat} {f : Eng → State → Turn} (h : s.Inv) (hf : ∀ g : Eng, (f g s).Inv) :
    (s.engTurn team q f).Inv := by
  simp only [State.engTurn]
  split
  · exact h
  · split
    · exact h
    · exact h.endTurn (hf _)

/-! ## Machine/Matrix -/

theorem State.Inv.putGranule {team m g v : Nat} (h : s.Inv) : (s.putGranule team m g v).Inv := h.modTeam
theorem State.Inv.modAcc {team a : Nat} {f : Acc → Acc} (h : s.Inv) : (s.modAcc team a f).Inv := h.modTeam
theorem State.Inv.mendAcc {team a : Nat} {p : Nat → Bool} (h : s.Inv) : (s.mendAcc team a p).Inv := h.modTeam
theorem Eng.mma_inv {g : Eng} (h : s.Inv) : (g.mma s).Inv := .done h.modAcc.mendAcc
theorem Iss.Inv.requestLease {x : Iss} (h : x.Inv) : (x.requestLease).Inv := h.state.modTeam.park
theorem State.Inv.spendLease {t : Team} {len : Nat} (h : s.Inv) : (s.spendLease t len).Inv := h.modTeam
theorem Eng.azero_inv {g : Eng} (h : s.Inv) : (g.azero s).Inv := .done h.modAcc.mendAcc
theorem Eng.aswap_inv {g : Eng} (h : s.Inv) : (g.aswap s).Inv := .done h.modAcc.modAcc
theorem Eng.aflag_inv {g : Eng} (h : s.Inv) : (g.aflag s).Inv := .done h

theorem Iss.Inv.image {x : Iss} {kind : EngKind} {perm : Perm} {detail : Nat} {returns : Bool} (h : x.Inv) :
    (x.image kind perm detail returns).Inv := by
  simp only [Iss.image]
  refine Iss.Inv.intoQueue h ?_
  split
  · rename_i e
    exact Iss.Inv.bufTrap.of_some e
  · split
    · rename_i e
      exact Iss.Inv.pieceTrap.of_some e
    · exact .ite .trap h.enqueue

theorem Eng.nextItem_inv {g : Eng} {count : Nat} {ws : List RegWrite} (h : s.Inv) :
    (g.nextItem s count ws).Inv := .ite (.more h) (.done h)

theorem Eng.ald_inv {g : Eng} (h : s.Inv) : (g.ald s).Inv := by
  simp only [Eng.ald]
  exact Eng.item_inv h fun _ _ h => Eng.nextItem_inv h.modAcc.mendAcc

theorem Eng.ast_inv {g : Eng} (h : s.Inv) : (g.ast s).Inv := by
  simp only [Eng.ast]
  exact Eng.item_inv h fun _ _ h => Eng.nextItem_inv h

theorem Eng.drainEnd_inv {g : Eng} (h : s.Inv) : (g.drainEnd s).Inv := .done h.modAcc

theorem Eng.drainTiles_inv {g : Eng} (h : s.Inv) :
    (g.drainTiles s).Inv := .ite (.foldl (fun _ _ h => h.putGranule) h) (.foldl (fun _ _ h => h.putGranule) h)

theorem Eng.adrain_inv {g : Eng} (h : s.Inv) : (g.adrain s).Inv :=
  .ite (Eng.drainEnd_inv (Eng.drainTiles_inv h)) (Eng.item_inv h fun _ _ h => .ite (.more h) (Eng.drainEnd_inv h))

theorem Iss.Inv.rowTrap {x : Iss} {q : Nat} {perm : Perm} {detail : Nat} : FoundInv (x.rowTrap q perm detail) := by
  simp only [Iss.rowTrap]
  split
  · exact .some .badValue
  · split
    · rename_i e
      exact .some (Iss.Inv.bufTrap.of_some e)
    · exact Iss.Inv.pieceTrap

theorem Eng.tld_inv {g : Eng} (h : s.Inv) : (g.tld s).Inv := by
  simp only [Eng.tld]
  exact Eng.item_inv h fun _ _ h => Eng.nextItem_inv h.putGranule

theorem Eng.tst_inv {g : Eng} (h : s.Inv) : (g.tst s).Inv := by
  simp only [Eng.tst]
  exact Eng.item_inv h fun _ _ h => Eng.nextItem_inv h

theorem Eng.tcvt_inv {g : Eng} (h : s.Inv) : (g.tcvt s).Inv := .done (.foldl (fun _ _ h => h.putGranule) h)

theorem Eng.matrixGood_inv {g : Eng} (h : s.Inv) : (g.matrixGood s).Inv := by
  simp only [Eng.matrixGood]
  split
  · exact Eng.mma_inv h
  · exact Eng.azero_inv h
  · exact Eng.aswap_inv h
  · exact Eng.aflag_inv h
  · exact Eng.ald_inv h
  · exact Eng.ast_inv h
  · exact Eng.adrain_inv h
  · exact Eng.tld_inv h
  · exact Eng.tst_inv h
  · exact Eng.tcvt_inv h

theorem Eng.matrix_inv {g : Eng} (h : s.Inv) : (g.matrix s).Inv := by
  simp only [Eng.matrix]
  split
  · exact .trap h
  · exact Eng.matrixGood_inv h

theorem Iss.Inv.bslice {x : Iss} {kind : EngKind} (h : x.Inv) : (x.bslice kind).Inv := by
  simp only [Iss.bslice]
  refine Iss.Inv.intoQueue h ?_
  split
  · exact .badValue
  · split
    · rename_i e
      exact Iss.Inv.rowTrap.of_some e
    · exact h.enqueue

theorem State.Inv.putSlice {core col gran : Nat} {v : BitVec 264} (h : s.Inv) : (s.putSlice core col gran v).Inv := h.modCore

theorem Eng.bld_inv {g : Eng} (h : s.Inv) : (g.bld s).Inv :=
  .ite (.ite (.waits h) (Eng.item_inv h fun _ _ h => .more h)) (Eng.item_inv h fun _ _ h => Eng.nextItem_inv h.putSlice)

/-! ## Machine/Channel -/

theorem State.Inv.applyBeat {tower : Nat} {b : Beat} (h : s.Inv) : (s.applyBeat tower b).Inv := by
  simp only [State.applyBeat]
  split
  · exact .foldl (fun _ _ h => .ite h.putSlice h) h
  · exact .modTower (.foldl (fun _ _ h => h.modLayer) h)

theorem State.Inv.beatApplied {tower : Nat} {b : Beat} (h : s.Inv) : (s.beatApplied tower b).Inv := by
  simp only [State.beatApplied]
  split
  · exact h.modTeam
  · split
    · exact h.modTeam
    · exact .ite h.modTeam.engDone h.modTeam

theorem State.Inv.applyHeld {tower fuel : Nat} (h : s.Inv) : (s.applyHeld tower fuel).Inv := by
  induction fuel generalizing s with
  | zero => exact h
  | succ fuel ih =>
    simp only [State.applyHeld]
    split
    · exact h
    · exact .ite h (ih h.modTower.applyBeat.beatApplied)

theorem State.Inv.transmit {tower entry : Nat} {c : Carry} {bad : Bool} (h : s.Inv) : (s.transmit tower entry c bad).Inv := by
  simp only [State.transmit]
  split
  · exact h.modTower.modTower
  · split
    · exact h.modTower.modTower.modOp
    · exact h.modTower.modTower

/-! ## Machine/Copy -/

theorem Iss.Inv.spadOut {x : Iss} {k kind : Nat} {off : Int} {n rows pitch : Nat} : FoundInv (x.spadOut k kind off n rows pitch) :=
  .ite .none .mapTrap

theorem firstTrap_inv {os : List (Option Act)} (h : ∀ o ∈ os, FoundInv o) : FoundInv (firstTrap os) := by
  induction os with
  | nil => exact .none
  | cons o os ih =>
    rw [List.forall_mem_cons] at h
    obtain ⟨ho, hos⟩ := h
    cases ho with
    | none => exact ih hos
    | some ha => exact .some ha

theorem Iss.Inv.copy {x : Iss} {kind : EngKind} (h : x.Inv) : (x.copy kind).Inv := by
  simp only [Iss.copy]
  refine h.intoQueue (.ite .badValue (.ite .badValue (.ite .badValue ?_)))
  split
  · rename_i e
    refine FoundInv.of_some (firstTrap_inv ?_) e
    simp only [List.forall_mem_cons]
    exact ⟨.ite Iss.Inv.bufTrap .none, .ite Iss.Inv.bufTrap .none, Iss.Inv.spadOut, Iss.Inv.spadOut, .ite .mapTrap .none,
      .ite (.some .trap) .none, List.forall_mem_nil _⟩
  · exact h.enqueue

theorem Iss.Inv.cpcb {x : Iss} (h : x.Inv) : (x.cpcb).Inv := by
  simp only [Iss.cpcb]
  refine h.intoQueue (.ite .badValue ?_)
  split
  · rename_i e
    refine FoundInv.of_some (firstTrap_inv ?_) e
    simp only [List.forall_mem_cons]
    exact ⟨Iss.Inv.bufTrap, .ite (.some .trap) .none, .ite (.some .trap) .none, .ite (.some .badValue) .none,
      List.forall_mem_nil _⟩
  · exact h.enqueue

theorem Eng.readEnd_inv {g : Eng} {x : End} {o : Int} {n : Nat} {l1 : Bool} (h : s.Inv) : (g.readEnd s x o n l1).Inv := by
  simp only [Eng.readEnd]
  split
  · exact .ite (Eng.read_inv h) (.ok h)
  · exact .ite (.stop (.trap h)) (.ok h)

theorem Eng.writeEnd_inv {g : Eng} {x : End} {o : Int} {n v : Nat} {l1 : Bool} {row : Int × Nat} (h : s.Inv) :
    (g.writeEnd s x o n v l1 row).Inv := by
  simp only [Eng.writeEnd]
  split
  · exact .ite (Eng.write_inv h) (.ok h)
  · exact .ite (.stop (.trap h)) (.ok h.spadStore)

theorem Eng.noted_inv {g : Eng} {d : Int} {k : Nat} {l1 : Bool} (h : s.Inv) : (g.noted s d k l1).Inv := .ite h h.modOp

theorem Eng.copyEnd_inv {g : Eng} (h : s.Inv) : (g.copyEnd s).Inv := by
  simp only [Eng.copyEnd]
  split
  · exact .done h.modCb
  · exact .more h
  · exact .done h

theorem Eng.copyOut_inv {g : Eng} {idx : Nat} (h : s.Inv) : (g.copyOut s idx).Inv := by
  simp only [Eng.copyOut]
  split
  · rename_i e
    exact (Eng.writeEnd_inv (Eng.noted_inv h)).of_stop e
  · rename_i e
    have h := (Eng.writeEnd_inv (Eng.noted_inv h)).of_ok e
    exact .ite (.more h.modOp) (.ite (.more h.modOp) (Eng.copyEnd_inv h.modOp))

theorem Eng.copyIn_inv {g : Eng} {idx : Nat} (h : s.Inv) : (g.copyIn s idx).Inv := by
  simp only [Eng.copyIn]
  split
  · rename_i e
    exact (Eng.readEnd_inv h).of_stop e
  · rename_i e
    exact .more ((Eng.readEnd_inv h).of_ok e).modOp

theorem Eng.copy_inv {g : Eng} (h : s.Inv) : (g.copy s).Inv := by
  simp only [Eng.copy]
  split
  · exact .trap h
  · exact .ite (.ite (.waits h) (.more h.modCb.modOp)) (.ite (Eng.copyEnd_inv h) (.ite (Eng.copyIn_inv h) (Eng.copyOut_inv h)))

/-! ## Machine/Message -/

theorem Eng.am_inv {g : Eng} (h : s.Inv) : (g.am s).Inv := by
  unfold Eng.am
  extract_lets t core released
  have hr : released.Inv := .ite h h.writeBackAll
  exact .ite (.ite (.waits hr) (.done hr.emit)) (.ite (.waits hr) (.done (.modLaunch (hr.fresh.of_mem rfl))))

theorem Iss.Inv.oneSided {x : Iss} {kind : EngKind} (h : x.Inv) : (x.oneSided kind).Inv := by
  simp only [Iss.oneSided]
  refine h.intoQueue (.ite .badValue ?_)
  split
  · rename_i e
    refine FoundInv.of_some (firstTrap_inv ?_) e
    simp only [List.forall_mem_cons]
    exact ⟨.ite Iss.Inv.bufTrap .none, .ite Iss.Inv.bufTrap .none, Iss.Inv.spadOut, Iss.Inv.spadOut, .ite (.some .trap) .none,
      .ite (.some .trap) .none, List.forall_mem_nil _⟩
  · exact h.enqueue

theorem Eng.rmw_inv {g : Eng} {va n : Nat} {b : Buf} {f : Nat → Nat} {tag : Bool} (h : s.Inv) : (g.rmw s va n b f tag).Inv := by
  unfold Eng.rmw
  refine Eng.reach_inv h fun p s h => ?_
  extract_lets line sent home
  have hs : sent.Inv := h.emitAccess
  have hh : home.Inv := hs.writeBackAt.dropLine
  refine .ite (.stop (.trap hs)) ?_
  split
  rename_i e
  extract_lets written
  have hw : written.Inv := .ite (hh.homeRead.after e) (hh.homeRead.after e).homeWrite
  exact .ok (.ite hw.addTag hw)

theorem Eng.signal_inv {g : Eng} (h : s.Inv) : (g.signal s).Inv := by
  unfold Eng.signal
  extract_lets b released
  have hr : released.Inv := .ite h h.writeBackAll
  refine .ite ?_ (.waits h)
  split
  · rename_i e
    exact .done ((Eng.rmw_inv hr).of_ok e)
  · rename_i e
    exact (Eng.rmw_inv hr).of_stop e

theorem Iss.Inv.app {x : Iss} (h : x.Inv) : (x.app).Inv := by
  simp only [Iss.app]
  refine h.intoQueue ?_
  split
  · rename_i e
    refine FoundInv.of_some (firstTrap_inv ?_) e
    simp only [List.forall_mem_cons]
    exact ⟨Iss.Inv.bufTrap, Iss.Inv.bufTrap, List.forall_mem_nil _⟩
  · refine .ite .trap (.ite .trap (.ite .trap (.ite .trap (.ite .trap ?_))))
    split
    · exact .fails h.state.translateLines.translateLines
    · exact .ite (.hold h.state.translateLines.translateLines.holdOn) (.next h.state.translateLines.translateLines.enqueueOn)

theorem Eng.appTail_inv {g : Eng} {L : Nat} (h : s.Inv) : (g.appTail s L).Inv := Eng.rmw_inv h

theorem Eng.appTails_inv {g : Eng} (h : s.Inv) : (g.appTails s).Inv := by
  simp only [Eng.appTails]
  split
  · exact .more h.finishResult.modOp
  · split
    · rename_i e
      exact (Eng.appTail_inv h).of_stop e
    · rename_i e
      exact .ite (.more ((Eng.appTail_inv h).of_ok e).modOp) (.more ((Eng.appTail_inv h).of_ok e).finishResult.modOp)

theorem Eng.logRow_inv {g : Eng} {lane va n v : Nat} {m : Miss} (h : s.Inv) : SomeInv (g.logRow s lane va n v m) := by
  simp only [Eng.logRow]
  exact .ite (.some (h.of_mem rfl)) (.ite .none (.mapState (.ite (.some h) h.gather) fun _ h => h.of_mem rfl))

theorem Eng.appRows_inv {g : Eng} (h : s.Inv) : (g.appRows s).Inv := by
  simp only [Eng.appRows]
  split
  · exact .waits h
  · split
    · exact .more h
    · split
      · rename_i e
        exact (Eng.read_inv h).of_stop e
      · rename_i e
        have hw {va n v : Nat} {b : Buf} {l1 count whole : Bool} := Eng.write_inv (g := g) (va := va) (n := n) (v := v) (b := b)
          (l1 := l1) (count := count) (whole := whole) ((Eng.read_inv h).of_ok e)
        split
        · rename_i e
          exact .ite (.more (hw.of_ok e)) (.more (hw.of_ok e))
        · rename_i e
          have h := (hw.of_stop e).of_miss
          split
          · rename_i e
            have h := (Eng.logRow_inv h).of_some e
            exact .ite (.more h) (.more h)
          · exact .stuck h
        · rename_i e
          exact hw.of_stop e

theorem Eng.app_inv {g : Eng} (h : s.Inv) : (g.app s).Inv := .ite (Eng.appTails_inv h) (.ite (.waits h) (.done h))

theorem Eng.msg_inv {g : Eng} (h : s.Inv) : (g.msg s).Inv := by
  simp only [Eng.msg]
  split
  · exact Eng.am_inv h
  · exact Eng.app_inv h
  · exact .ite (.waits h) (Eng.copy_inv h)
  · exact Eng.copy_inv h

theorem Iss.Inv.sigw {x : Iss} (h : x.Inv) : (x.sigw).Inv := by
  simp only [Iss.sigw]
  split
  · rename_i e
    exact h.held.of_some e
  · split
    · rename_i e
      exact Iss.Inv.bufTrap.of_some e
    · split
      · rename_i e
        exact Iss.Inv.elemTrap.of_some e
      · exact .ite (.next h.state) h.watchWord

theorem Iss.Inv.descTrap {x : Iss} {b : Buf} : FoundInv (x.descTrap b) := by
  simp only [Iss.descTrap]
  split
  · exact .some .badValue
  · split
    · rename_i e
      exact .some (Iss.Inv.bufTrap.of_some e)
    · exact Iss.Inv.elemTrap

theorem Iss.Inv.coll {x : Iss} (h : x.Inv) : (x.coll).Inv := by
  simp only [Iss.coll]
  refine Iss.Inv.intoQueue h ?_
  split
  · rename_i e
    exact h.held.of_some e
  · split
    · rename_i e
      exact Iss.Inv.descTrap.of_some e
    · exact h.translateAndSend fun _ h => .next h.settle.enqueueOn

theorem Iss.Inv.collw {x : Iss} {test : Bool} (h : x.Inv) : (x.collw test).Inv := by
  simp only [Iss.collw]
  split
  · rename_i e
    exact h.held.of_some e
  · split
    · rename_i e
      exact Iss.Inv.descTrap.of_some e
    · exact .ite (h.translateAndSend fun _ h => h.sent) h.watchWord

/-! ## Machine/System -/

theorem Iss.Inv.fwcall {x : Iss} (h : x.Inv) : (x.fwcall).Inv := by
  simp only [Iss.fwcall]
  split
  · rename_i e
    exact h.held.of_some e
  · split
    · exact .badValue
    · refine .next ?_
      simp only [State.Inv]
      exact h.state.writeBackAll.addResult

/-! ## Machine/TaskOps -/

theorem State.Inv.promoteTasks (h : s.Inv) : (s.promoteTasks).Inv := h.of_mem rfl

theorem State.Inv.enterTask {l : Launch} {entry rec : Nat} (h : s.Inv) :
    (s.enterTask l entry rec).Inv := .promoteTasks (.modLaunch (h.of_mem rfl))

theorem State.Inv.readLines {team : Nat} {ps : List (Place × List Seg)} (h : s.Inv) : (s.readLines team ps).2.Inv := by
  induction ps generalizing s with
  | nil => exact h
  | cons p ps ih =>
    simp only [State.readLines]
    exact ih (.foldlSnd (fun _ _ h => h.homeRead) h.countLine)

theorem State.Inv.spawn {x : Iss} {entry va rec : Nat} (h : s.Inv) : (x.spawn s entry va rec).Inv := by
  simp only [Iss.spawn]
  split
  · exact .next h.enterTask.addResult
  · exact .next h.errorRecord.addResult
  · exact .next h

theorem Iss.Inv.tspawn {x : Iss} (h : x.Inv) : (x.tspawn).Inv := by
  simp only [Iss.tspawn]
  split
  · exact .badValue
  · split
    · rename_i e
      exact Iss.Inv.bufTrap.of_some e
    · split
      · exact .trap
      · split
        · rename_i e
          exact h.held.of_some e
        · split
          · exact h.state.park
          · split
            · exact .trap
            · exact .ite (.hold h.state.writeBackAll.translateLines.holdOn) h.state.writeBackAll.translateLines.readLines.spawn

theorem Iss.Inv.nemit {x : Iss} (h : x.Inv) : (x.nemit).Inv := by
  simp only [Iss.nemit]
  split
  · exact .badValue
  · split
    · split
      · rename_i e
        exact h.held.of_some e
      · exact .next h.state.writeBackAll.errorRecord
    · split
      · exact .badValue
      · split
        · exact .trap
        · split
          · rename_i e
            exact h.held.of_some e
          · exact .ite (.hold h.state) (.next h.state.writeBackAll.modLaunch)

/-! ## Machine/FaultStage -/

theorem State.Inv.passFilter {die core : Nat} {fs : List FilterEntry} (h : s.Inv) : (s.passFilter die core fs).Inv := by
  induction fs generalizing s with
  | nil => exact h
  | cons f fs ih =>
    simp only [State.passFilter]
    split
    · exact h
    · exact ih h.modLayer.modCore.wakeRoom

theorem State.Inv.passFilters {die : Nat} (h : s.Inv) : (s.passFilters die).Inv := .foldl (fun _ _ h => h.passFilter) h

theorem State.Inv.keyToCore3 {x : StageEntry} (h : s.Inv) : (s.keyToCore3 x).Inv := by
  have hk {s : State} {ks : List StageEntry} (h : s.Inv) : State.Inv { s with keys := ks } := h
  exact .ite (hk h) (hk h.errorRecord)

theorem State.Inv.releaseStage {die : Nat} (h : s.Inv) :
    (s.releaseStage die).Inv := .foldl (fun _ _ h => h.keyToCore3) h.modLayer

theorem State.Inv.countReplay {x : LogEntry} {p : Place} (h : s.Inv) : (s.countReplay x p).Inv := by
  simp only [State.countReplay]
  split
  · exact h
  · simp only [State.Inv]
    exact h.modTeam

theorem State.Inv.performEntry {x : LogEntry} {p : Place} (h : s.Inv) : (s.performEntry x p).Inv :=
  .progressTeam (.settle (.countReplay (.ite h.beforePerform.performSegs.addTag h.beforePerform.performSegs)))

theorem State.Inv.dropEntry {x : LogEntry} (h : s.Inv) : (s.dropEntry x).Inv := h.of_mem rfl

theorem State.Inv.postSaved {x : LogEntry} {i : TrapInfo} (h : s.Inv) : (s.postSaved x i).Inv := by
  simp only [State.postSaved]
  split
  · exact h
  · split
    · split
      · exact h.fatalTrap
      · exact h
    · exact h.of_mem rfl

theorem State.Inv.entryTrap {x : LogEntry} {cause detail : Nat} (h : s.Inv) :
    (s.entryTrap x cause detail).Inv := h.dropEntry.postTrap.postSaved.settle

theorem State.Inv.openKey {x : LogEntry} (h : s.Inv) : (s.openKey x).Inv := by
  simp only [State.openKey]
  split
  · exact h
  · split
    · rename_i e
      exact (h.gather.of_some e).of_mem rfl
    · exact h.of_mem rfl

theorem State.Inv.replay {e : LogEntry} (h : s.Inv) : (s.replay e).2.Inv := by
  have hs : ∀ perm, (if e.parked then s.translateNoCache e.ctx e.va perm else s.translate e.core e.ctx e.va perm).2.Inv := by
    intro perm
    split
    · exact h.translateNoCache
    · exact h.translate
  simp only [State.replay]
  split
  · rename_i e
    exact ((hs _).after e).entryTrap
  · rename_i e
    exact ((hs _).after e).openKey
  · rename_i e
    have h := (hs _).after e
    split
    · exact h.entryTrap
    · exact h.modPkg.dropEntry.performEntry

theorem State.Inv.replayAll {r : Range} {stay : List (Nat × Nat)} {es : List LogEntry} (h : s.Inv) :
    (s.replayAll r stay es).Inv := by
  induction es generalizing s stay with
  | nil => exact h
  | cons e es ih =>
    simp only [State.replayAll]
    split
    · exact ih h
    · split
      · rename_i e
        exact ih (h.replay.after e)
      · rename_i e
        exact ih (h.replay.after e)

theorem State.Inv.openKeys (h : s.Inv) : (s.openKeys).Inv := .foldl (fun _ _ h => h.openKey) h
theorem State.Inv.dropCached {r : Range} (h : s.Inv) : (s.dropCached r).Inv := h.of_mem rfl
theorem State.Inv.dropKeys {r : Range} (h : s.Inv) : (s.dropKeys r).Inv := h.of_mem rfl
theorem State.Inv.resumeHeld {r : Range} (h : s.Inv) : (s.resumeHeld r).Inv := h.of_mem rfl

theorem State.Inv.wakeHeld {r : Range} (h : s.Inv) : (s.wakeHeld r).Inv := by
  simp only [State.wakeHeld]
  refine .foldl (fun s x h => ?_) h
  split
  · exact .ite h.wakeHeldFibre h
  · exact .ite h.wakeHeldFibre h
  · exact h

theorem State.Inv.invalidate {r : Range} (h : s.Inv) : (s.invalidate r).Inv :=
  .foldl (fun _ _ h => h.wakeRoom.wakeLogRoom) h.dropCached.dropKeys.replayAll.openKeys.resumeHeld.wakeHeld.wakeLog

/-! ## Machine/Collective -/

theorem State.Inv.modMember {m : Nat} {g : Member → Member} (h : s.Inv) : (s.modMember m g).Inv := h.of_mem rfl

theorem State.Inv.sendChunk {m : Member} {c : Nat} {words : List Nat} {err : Bool} (h : s.Inv) :
    (s.sendChunk m c words err).Inv := h.of_mem rfl

theorem Eng.chunk_inv {g : Eng} {m : Member} (h : s.Inv) : (g.chunk s m).Inv := by
  simp only [Eng.chunk]
  refine .ite (.waits h) (.ite (.more h.sendChunk) ?_)
  split
  · rename_i e
    have h := (Eng.read_inv h).of_ok e
    exact .ite (.more h) (.more h.sendChunk)
  · rename_i e
    exact .more ((Eng.read_inv h).of_stop e).of_trap.sendChunk
  · rename_i e
    exact (Eng.read_inv h).of_stop e

theorem Eng.beginColl_inv {g : Eng} (h : s.Inv) : (g.beginColl s).Inv := by
  simp only [Eng.beginColl]
  split
  · rename_i e
    exact .ite (.more ((Eng.read_inv h).of_ok e)) (.more (((Eng.read_inv h).of_ok e).of_mem rfl))
  · rename_i e
    exact (Eng.read_inv h).of_stop e

theorem Eng.coll_inv {g : Eng} (h : s.Inv) : (g.coll s).Inv := by
  simp only [Eng.coll]
  split
  · exact Eng.beginColl_inv h
  · split
    · exact .ite (.waits h) (Eng.chunk_inv h)
    · exact .waits h

theorem State.Inv.dropStale (h : s.Inv) : (s.dropStale).Inv := h.of_mem rfl

theorem State.Inv.endMember {m : Member} (h : s.Inv) :
    (s.endMember m).Inv := .ite (.errorRecord (.dropStale (h.of_mem rfl))) (.dropStale (h.of_mem rfl))

theorem Eng.tagAt_inv {g : Eng} {va : Nat} (h : s.Inv) : (g.tagAt s va).Inv := by
  simp only [Eng.tagAt]
  split
  · exact .ite h.addTag h
  · exact h

theorem Eng.collEnd_inv {g : Eng} {m : Member} (h : s.Inv) : (g.collEnd m s).Inv := by
  unfold Eng.collEnd
  extract_lets o b released finish signal
  have hr : released.Inv := .ite h h.writeBackAll
  have signalled {s : State} (h : s.Inv) : (signal s).Inv := by
    refine .ite ?_ (.done h.progress.endMember)
    split
    · rename_i e
      exact .done ((Eng.rmw_inv h).of_ok e).progress.endMember
    · rename_i e
      exact .trap ((Eng.rmw_inv h).of_stop e).of_trap.endMember
    · rename_i e
      exact (Eng.rmw_inv h).of_stop e
  refine .ite (signalled hr) ?_
  split
  · rename_i e
    have h := (Eng.write_inv hr).of_ok e
    exact signalled (.modOp (.ite (Eng.tagAt_inv h) h))
  · rename_i e
    exact .trap ((Eng.write_inv hr).of_stop e).of_trap.endMember
  · rename_i e
    exact (Eng.write_inv hr).of_stop e

theorem State.Inv.completeMember {m : Member} (h : s.Inv) : (s.completeMember m).Inv := by
  simp only [State.completeMember]
  split
  · exact h.of_mem rfl
  · split
    · exact h
    · exact .ite h (.endTurn h (Eng.collEnd_inv h))

theorem State.Inv.combineAt {entry : Nat} {first : CollPacket} {ps : List CollPacket} (h : s.Inv) :
    (s.combineAt entry first ps).Inv := by
  simp only [State.combineAt, State.Inv]
  exact State.Inv.ite (h.of_mem rfl) (h.of_mem rfl)

theorem State.Inv.emitColl {p : CollPacket} (h : s.Inv) : (s.emitColl p).Inv := h.emit

theorem State.Inv.packetLeaves {p : CollPacket} (h : s.Inv) : (s.packetLeaves p).Inv := by
  simp only [State.packetLeaves, State.Inv]
  exact h.emitColl

theorem State.Inv.packetAt {p : CollPacket} (h : s.Inv) : (s.packetAt p).Inv := by
  simp only [State.packetAt]
  split
  · exact h.of_mem rfl
  · split
    · exact h.packetLeaves
    · split
      · exact h
      · split
        · exact h.of_mem rfl
        · split
          · exact .combineAt (h.of_mem rfl)
          · exact h.of_mem rfl

theorem State.Inv.replicate {p : CollPacket} {r : CollRecord} (h : s.Inv) :
    (s.replicate p r).Inv := .foldl (fun _ _ h => h.of_mem rfl) (h.of_mem rfl)

theorem Eng.landChunk_inv {g : Eng} {m : Member} {p : CollPacket} (h : s.Inv) : (g.landChunk m p s).Inv := by
  simp only [Eng.landChunk]
  refine .ite (.more (.modMember (h.of_mem rfl))) ?_
  split
  · rename_i e
    have h := (Eng.write_inv h).of_ok e
    exact .ite (.more (h.of_mem rfl)) (.more (.modMember (h.of_mem rfl)))
  · rename_i e
    exact .more (.modMember (((Eng.write_inv h).of_stop e).of_trap.of_mem rfl))
  · rename_i e
    exact (Eng.write_inv h).of_stop e

theorem State.Inv.packetBack {p : CollPacket} (h : s.Inv) : (s.packetBack p).Inv := by
  simp only [State.packetBack]
  split
  · split
    · exact h.of_mem rfl
    · split
      · exact h.of_mem rfl
      · split
        · exact h.of_mem rfl
        · split
          · exact h
          · exact .ite h (.endTurn h (Eng.landChunk_inv h))
  · split
    · exact h.replicate
    · exact h.of_mem rfl
  · exact .emitColl (h.of_mem rfl)
  · exact h.of_mem rfl

/-! ## Machine/Zunos -/

theorem State.Inv.countLink {port : Nat} (h : s.Inv) : (s.countLink port).Inv := h.modPkg

theorem State.Inv.remoteBits {key enable v : Nat} (h : s.Inv) :
    (s.remoteBits key enable v).Inv := .ite h (.foldl (fun _ _ h => .ite h.homeWriteBits h) h)

theorem State.Inv.remoteByte {key v : Nat} (h : s.Inv) : (s.remoteByte key v).Inv := .ite h h.homeWrite

theorem State.Inv.hearPair {p : Packet} (h : s.Inv) : (s.hearPair p).Inv := by
  simp only [State.hearPair]
  split
  · exact .ite h.modPkg h
  · exact h

theorem State.Inv.remoteWrite {p : Packet} (h : s.Inv) : (s.remoteWrite p).Inv := by
  simp only [State.remoteWrite]
  refine .foldl (fun s x h => ?_) h
  split
  · exact h
  · exact h.remoteByte
  · exact h.remoteBits

theorem State.Inv.respond {p : Packet} {k : Wire} {payload : List Byte} (h : s.Inv) : (s.respond p k payload).Inv := h.emit
theorem State.Inv.remoteRead {p : Packet} (h : s.Inv) : (s.remoteRead p).Inv := .ite h.respond h.homeRead.respond
theorem State.Inv.remoteRmw {p : Packet} {n : Nat} (h : s.Inv) : (s.remoteRmw p n).Inv := .foldl (fun _ _ h => h.remoteByte) h

theorem State.Inv.remoteMessage {p : Packet} (h : s.Inv) : (s.remoteMessage p).Inv := by
  simp only [State.remoteMessage]
  split
  · exact h
  · exact .ite h (.modLaunch (h.of_mem rfl))

theorem State.Inv.remoteColl {p : Packet} (h : s.Inv) : (s.remoteColl p).Inv := by
  simp only [State.remoteColl]
  split
  · exact .ite (h.of_mem rfl) h
  · split
    · exact h
    · exact .replicate (h.of_mem rfl)

/-! ## Machine/SaveArea -/

theorem State.Inv.writeArea {ctx area : Nat} {ps : List Put} (h : s.Inv) :
    (s.writeArea ctx area ps).Inv := .foldl (fun _ _ h => h.virtWrite) h

/-! ## Machine/Reorder -/

theorem State.Inv.queueTeam {launch : Nat} {origin : Origin} {kernel : Nat} {level : Level} {placed : List RegWrite} {live : Mask}
    (h : s.Inv) : (s.queueTeam launch origin kernel level placed live).Inv := h.of_mem rfl

theorem State.Inv.startHandler {m : AmMsg} {l : Launch} (h : s.Inv) : (s.startHandler m l).Inv := h.queueTeam

theorem State.Inv.launchKey {tower key launch : Nat} (h : s.Inv) : (s.launchKey tower key launch).Inv := by
  simp only [State.launchKey]
  split
  · exact h.modTower
  · exact h.modTower.queueTeam.modLaunch

theorem State.Inv.deposit {tower : Nat} {r : HenRec} (h : s.Inv) : (s.deposit tower r).Inv := by
  simp only [State.deposit]
  split
  · split
    · exact .ite h.launchKey.modTower.launchKey h.launchKey.modTower
    · exact .ite h.modTower.launchKey h.modTower
  · exact .ite h.modTower.launchKey h.modTower

theorem State.Inv.launchBatch {l : Launch} (h : s.Inv) : (s.launchBatch l).Inv := h.queueTeam.modLaunch.progress

theorem State.Inv.joinBatch {l : Launch} {r : List Word} (h : s.Inv) :
    (s.joinBatch l r).Inv := .ite h.modLaunch.launchBatch h.modLaunch

theorem State.Inv.nextRecord {launch : Nat} (h : s.Inv) : (s.nextRecord launch).Inv := by
  simp only [State.nextRecord]
  split
  · exact h
  · split
    · exact h
    · exact .ite h h.modLaunch.joinBatch

theorem State.Inv.closeNode {l : Launch} (h : s.Inv) : (s.closeNode l).Inv := by
  simp only [State.closeNode]
  split
  · exact .ite (.foldl (fun _ _ h => h.nextRecord) h) (.launchBatch (.foldl (fun _ _ h => h.nextRecord) h))
  · exact .foldl (fun _ _ h => h.nextRecord) h

/-! ## Machine/Distrib -/

theorem State.Inv.anchor {l : Launch} {n : Nat} (h : s.Inv) : (s.anchor l n).2.Inv := by
  simp only [State.anchor]
  split
  · exact h
  · split
    · rename_i e
      exact h.virtRead.after e
    · rename_i e
      exact h.virtRead.after e
  · exact h

theorem State.Inv.home {l : Launch} {n : Nat} (h : s.Inv) : (s.home l n).2.Inv := by
  simp only [State.home]
  split
  · rename_i e
    exact h.anchor.after e
  · rename_i e
    have h := h.anchor.after e
    split
    · rename_i e
      exact h.translateNoCache.after e
    · rename_i e
      exact h.translateNoCache.after e

theorem State.Inv.homeTower {l : Launch} {n : Nat} (h : s.Inv) : (s.homeTower l n).2.Inv := by
  simp only [State.homeTower]
  split
  · rename_i e
    exact h.home.after e
  · rename_i e
    exact (h.home.after e).modPkg

theorem State.Inv.setLevels {qs : List QTeam} {g : QTeam → Level} (h : s.Inv) : (s.setLevels qs g).Inv := h.of_mem rfl
theorem State.Inv.draw {l : Launch} (h : s.Inv) : (s.draw l).Inv := .modLaunch (h.of_mem rfl)

theorem State.Inv.descend {q : QTeam} (h : s.Inv) : (s.descend q).Inv := by
  simp only [State.descend]
  split
  · split <;> exact h.setLevels
  · split <;> exact h.setLevels
  · split
    · exact h.setLevels
    · exact h.homeTower.setLevels
  · split
    · exact h.setLevels
    · exact h
  · split
    · split
      · exact h.setLevels
      · exact h
    · split
      · exact h.setLevels
      · exact h
  · exact h

theorem State.Inv.bindEntries {tower team n : Nat} (h : s.Inv) : (s.bindEntries tower team n).2.Inv := h.modTower
theorem State.Inv.takeIn {core ctx : Nat} (h : s.Inv) : (s.takeIn core ctx).Inv := h.invalidateAll.modCore

theorem State.Inv.addFibre {l : Launch} {q : QTeam} {team n : Nat} (h : s.Inv) : (s.addFibre l q team n).Inv := by
  simp only [State.addFibre]
  split
  · exact h
  · exact .wake (.modTeam (h.of_mem rfl))

theorem State.Inv.startTeam {l : Launch} {q : QTeam} {core : Nat} (h : s.Inv) : (s.startTeam l q core).Inv := by
  simp only [State.startTeam]
  refine .progress ?_
  split
  · simp only [State.Inv]
    refine State.Inv.foldl (fun _ _ h => h.addFibre) ?_
    simp only [State.Inv]
    exact State.Inv.bindEntries (.takeIn (h.of_mem rfl))
  · refine .foldl (fun _ _ h => h.addFibre) ?_
    simp only [State.Inv]
    exact State.Inv.bindEntries (.takeIn (h.of_mem rfl))

theorem State.Inv.launchRuns {l : Nat} (h : s.Inv) : (s.launchRuns l).Inv := .ite h h.modLaunch
theorem State.Inv.freeRuns {l : Nat} (h : s.Inv) : (s.freeRuns l).Inv := h.modLaunch
theorem State.Inv.restoreFails {l : Launch} (h : s.Inv) : (s.restoreFails l).Inv := .endLaunch (.errorRecord (h.of_mem rfl))

theorem State.Inv.areaOf {l : Launch} {x : SavedTeam} (h : s.Inv) : (s.areaOf l x).2.Inv := by
  simp only [State.areaOf]
  split
  · rename_i e
    exact h.virtRead.after e
  · rename_i e
    exact h.virtRead.after e

theorem State.Inv.putBack {x : SavedTeam} {b : Bytes} {core : Nat} {es : List Nat} (h : s.Inv) : (s.putBack x b core es).Inv :=
  .foldl (fun _ _ h => h.feServe) (.foldl (fun _ _ h => h.promoteHeard) (.foldl (fun _ _ h => h.wake) (h.of_mem rfl)))

theorem State.Inv.resumeTeam {l : Launch} {q : QTeam} {core : Nat} (h : s.Inv) : (s.resumeTeam l q core).Inv := by
  rw [State.resumeTeam]
  split
  · exact h
  · split
    · rename_i e
      exact (h.areaOf.after e).restoreFails
    · rename_i e
      exact .launchRuns (.freeRuns (.putBack (.bindEntries (.takeIn ((h.areaOf.after e).of_mem rfl)))))

theorem State.Inv.admitTeam {q : QTeam} (h : s.Inv) : (s.admitTeam q).Inv := by
  simp only [State.admitTeam]
  split
  · exact .ite h.resumeTeam h.startTeam
  · exact h

theorem State.Inv.removeTeam {t : Team} (h : s.Inv) : (s.removeTeam t).Inv := by
  simp only [State.removeTeam]
  split
  · refine .lookDraws ?_
    simp only [State.Inv]
    exact State.Inv.foldl (fun _ _ h => h.setCurrent) h
  · refine .modTower (.lookDraws ?_)
    simp only [State.Inv]
    exact State.Inv.foldl (fun _ _ h => h.setCurrent) h

theorem State.Inv.freeTasks (h : s.Inv) : (s.freeTasks).Inv := .ite h (.foldl (fun _ _ h => h.wake) (h.of_mem rfl))
theorem State.Inv.freeVersions (h : s.Inv) : (s.freeVersions).Inv := h.of_mem rfl
theorem State.Inv.retireTask {n : Nat} (h : s.Inv) : (s.retireTask n).Inv := .freeTasks (.freeVersions (h.of_mem rfl))

theorem State.Inv.endTeam {t : Team} (h : s.Inv) : (s.endTeam t).Inv := by
  simp only [State.endTeam]
  refine .progress ?_
  split
  · exact h.writeBackAll.removeTeam.modLaunch
  · exact h.writeBackAll.removeTeam.retireTask
  · exact h.writeBackAll.removeTeam.modLaunch

theorem State.Inv.endAway {q : QTeam} (h : s.Inv) : (s.endAway q).Inv := .progress (.modLaunch (h.of_mem rfl))

/-! ## Machine/Tasks -/

theorem State.Inv.modTask {n : Nat} {g : Task → Task} (h : s.Inv) : (s.modTask n g).Inv := h.of_mem rfl

theorem State.Inv.tryLines {ctx : Nat} {perm : Perm} {ls : List (Nat × Nat)} (h : s.Inv) : (s.tryLines ctx perm ls).2.Inv := by
  induction ls generalizing s with
  | nil => exact h
  | cons l ls ih =>
    simp only [State.tryLines]
    split <;> exact ih h.translateNoCache.translateNoCache

theorem State.Inv.taskFails {l : Launch} (h : s.Inv) : (s.taskFails l).Inv := h.errorRecord.endLaunch

theorem State.Inv.peek {ctx va n : Nat} (h : s.Inv) : (s.peek ctx va n).2.Inv := by
  induction n generalizing s va with
  | zero => exact h
  | succ n ih =>
    simp only [State.peek]
    split
    · rename_i e
      exact ih (h.translateNoCache.after e).homeRead
    · rename_i e
      exact ih (h.translateNoCache.after e)

theorem State.Inv.readTile {l : Launch} {t : Task} {tile : Nat} (h : s.Inv) : (s.readTile l t tile).2.Inv := by
  simp only [State.readTile]
  split
  · exact h
  · split
    · rename_i e
      exact h.virtRead.after e
    · rename_i e
      exact h.virtRead.after e

theorem State.Inv.bindRange {l : Launch} {t : Task} {block r : Nat} {write : Bool} {range : Nat × Nat} (h : s.Inv) :
    (s.bindRange l t block r write range).Inv := by
  simp only [State.bindRange]
  refine .foldl (fun s x h => .virtWrite ?_) h
  split
  · exact h
  · exact h.readTile

theorem State.Inv.placeTask {l : Launch} {t : Task} (h : s.Inv) : (s.placeTask l t).Inv :=
  .queueTeam (.modTask (.foldl (fun _ _ h => h.bindRange) (.foldl (fun _ _ h => h.bindRange) h.virtWrite.virtWrite)))

theorem State.Inv.beginTask {l : Launch} {t : Task} {vs : List (Nat × Nat)} (h : s.Inv) : (s.beginTask l t vs).Inv := by
  simp only [State.beginTask]
  split
  · exact h.modTask.tryLines.tryLines.taskFails
  · exact h.modTask.tryLines.tryLines.taskFails
  · exact h.modTask.tryLines.tryLines.modTask
  · exact h.modTask.tryLines.tryLines.modTask
  · exact h.modTask.tryLines.tryLines.placeTask

theorem State.Inv.commitTile {l : Launch} {t : Task} {v : Nat × Nat} (h : s.Inv) : (s.commitTile l t v).Inv := by
  simp only [State.commitTile, State.Inv]
  split
  · exact h.peek.virtWrite
  · exact h

theorem State.Inv.commitTask {l : Launch} {team : Team} {t : Task} (h : s.Inv) : (s.commitTask l team t).Inv :=
  .progress (.freeVersions (.promoteTasks (.wakePhase (.modTeam (.modTask (.foldl (fun _ _ h => h.commitTile) h.writeBackAll))))))

/-! ## Machine/Launching -/

theorem State.Inv.writeCompletion {qctx recVa status code : Nat} (h : s.Inv) :
    (s.writeCompletion qctx recVa status code).Inv := h.virtWrite.virtWrite

theorem State.Inv.noteIdle (h : s.Inv) : (s.noteIdle).Inv := h.of_mem rfl

theorem State.Inv.dropLaunch {l : Nat} (h : s.Inv) : (s.dropLaunch l).Inv := by
  simp only [State.dropLaunch]
  refine .foldl (fun _ _ h => h.wakeRoom.wakeLogRoom) (.foldl (fun _ _ h => h.wake) ?_)
  simp only [State.Inv]
  exact State.Inv.foldl (fun _ _ h => h.writeBackAll.removeTeam) h

/-! ## Machine/Queue -/

theorem State.Inv.acquireBytes {ctx va n : Nat} (h : s.Inv) : (s.acquireBytes ctx va n).Inv := by
  simp only [State.acquireBytes]
  refine .foldl (fun s x h => ?_) h
  split
  · exact h.serveTag
  · exact h

theorem State.Inv.acquireRead {ctx va n : Nat} (h : s.Inv) : (s.acquireRead ctx va n).2.Inv := h.acquireBytes.virtRead
theorem State.Inv.saveQcb {q : UQueue} (h : s.Inv) : (s.saveQcb q).Inv := h.virtWrite.virtWrite.virtWrite.virtWrite.virtWrite
theorem State.Inv.mapQueue {q slot : Nat} (h : s.Inv) : (s.mapQueue q slot).Inv := h.modQueue

theorem State.Inv.unmapQueue {q : Nat} (h : s.Inv) : (s.unmapQueue q).Inv := by
  simp only [State.unmapQueue]
  split
  · refine .saveQcb ?_
    simp only [State.Inv]
    exact h.modQueue
  · simp only [State.Inv]
    exact h.modQueue

theorem State.Inv.fillSlots {fuel : Nat} (h : s.Inv) : (s.fillSlots fuel).Inv := by
  induction fuel generalizing s with
  | zero => exact h
  | succ fuel ih =>
    simp only [State.fillSlots]
    split
    · exact h
    · exact ih h.mapQueue

theorem State.Inv.queueError {q code : Nat} (h : s.Inv) : (s.queueError q code).Inv := by
  simp only [State.queueError]
  split
  · exact h
  · exact h.errorRecord.modQueue.noteIdle

theorem State.Inv.findBells (h : s.Inv) : (s.findBells).Inv := h.of_mem rfl

theorem State.Inv.seekSlot {q : UQueue} (h : s.Inv) : (s.seekSlot q).Inv := by
  simp only [State.seekSlot]
  split
  · exact h.mapQueue
  · split
    · exact h.unmapQueue.mapQueue
    · exact h.modQueue

theorem State.Inv.takeKick {q : UQueue} (h : s.Inv) : (s.takeKick q).Inv := by
  unfold State.takeKick
  split
  · rename_i e
    exact (h.acquireRead.after e).queueError
  · rename_i e
    extract_lets w rung
    have hr : rung.Inv := (h.acquireRead.after e).modQueue
    split
    · exact hr
    · exact .ite hr.noteIdle (.ite hr.queueError (.ite hr.noteIdle hr.seekSlot.noteIdle))

theorem State.Inv.consumed {q : UQueue} (h : s.Inv) : (s.consumed q).Inv := h.modQueue.modPkg.noteIdle

theorem State.Inv.take {q step : Nat} {body : State → UQueue → Nat → State} (h : s.Inv)
    (hb : ∀ (s : State) (x : UQueue) (c : Nat), s.Inv → (body s x c).Inv) : (s.take q step body).Inv := by
  simp only [State.take]
  split
  · exact h
  · split
    · exact h
    · split
      · rename_i e
        exact (h.acquireRead.after e).queueError
      · rename_i e
        have h := h.acquireRead.after e
        exact .ite h.queueError (hb _ _ _ h)

theorem State.Inv.takeLaunch {q : UQueue} {c : Nat} (h : s.Inv) : (s.takeLaunch q c).Inv := by
  simp only [State.takeLaunch]
  split
  · exact h.queueError
  · split
    · rename_i e
      exact (h.acquireRead.after e).queueError
    · rename_i e
      refine .consumed ?_
      split
      · simp only [State.Inv]
        exact (h.acquireRead.after e).fresh
      · exact (h.acquireRead.after e).fresh.writeCompletion

theorem State.Inv.takeSignal {q : UQueue} {c : Nat} (h : s.Inv) : (s.takeSignal q c).Inv := by
  simp only [State.takeSignal]
  split
  · exact h.queueError
  · split
    · rename_i e
      exact (h.virtWrite.after e).consumed
    · rename_i e
      exact (h.virtWrite.after e).queueError

theorem State.Inv.waitTest {q : UQueue} {c : Nat} (h : s.Inv) : (s.waitTest q c).Inv := by
  simp only [State.waitTest]
  split
  · exact h.queueError
  · split
    · rename_i e
      exact (h.acquireRead.after e).queueError
    · rename_i e
      split
      · exact (h.acquireRead.after e).consumed
      · split
        · exact (h.acquireRead.after e).modQueue.addWatch
        · exact (h.acquireRead.after e).modQueue

theorem State.Inv.takeClose {q : UQueue} {c : Nat} (h : s.Inv) : (s.takeClose q c).Inv := by
  simp only [State.takeClose]
  split
  · exact h.queueError
  · exact h.closeNode.modLaunch.consumed

/-! ## Machine/Preempt -/

theorem State.Inv.stopTeams {l : Launch} {ts : List Team} (h : s.Inv) : SomeInv (s.stopTeams l ts) := by
  simp only [State.stopTeams]
  exact .ite (.some h) (.map fun _ => h.of_mem rfl)

theorem State.Inv.stopWhole {l : Launch} (h : s.Inv) : SomeInv (s.stopWhole l) :=
  h.stopTeams.mapState fun _ h => .modLaunch (h.of_mem rfl)

theorem State.Inv.forceStop {l : Launch} {stop : State → Launch → Option State} (h : s.Inv) (hs : SomeInv (stop s l)) :
    (s.forceStop l stop).Inv := by
  simp only [State.forceStop]
  split
  · rename_i e
    exact hs.of_some e
  · exact h.errorRecord.endLaunch

theorem State.Inv.stopTower {tower : Nat} (h : s.Inv) : (s.stopTower tower).Inv := by
  simp only [State.stopTower]
  refine .foldl (fun s x h => ?_) h
  split
  · exact .forceStop h h.stopWhole
  · exact h

theorem State.Inv.stopVictim {l : Launch} (h : s.Inv) : SomeInv (s.stopVictim l) := by
  simp only [State.stopVictim]
  refine .ite ?_ h.stopWhole
  cases s.lastTeam l with
  | none => exact .none
  | some t => exact h.stopTeams

theorem State.Inv.saveTeam {l : Launch} {t : Team} (h : s.Inv) : (s.saveTeam l t).Inv := by
  simp only [State.saveTeam]
  split
  · exact h
  · exact .wakeRoom (.modLaunch (h.writeBackAll.writeArea.removeTeam.of_mem rfl))

theorem State.Inv.discardTask {t : Team} {n : Nat} (h : s.Inv) :
    (s.discardTask t n).Inv := .wakeLogRoom (.wakeRoom (.freeRuns (.modTask (h.writeBackAll.removeTeam.of_mem rfl))))

theorem State.Inv.queueSaved {x : SavedTeam} (h : s.Inv) : (s.queueSaved x).Inv := h.of_mem rfl

theorem State.Inv.stopOne {l : Launch} {t : Team} (h : s.Inv) : (s.stopOne l t).Inv := by
  simp only [State.stopOne]
  split
  · exact h.errorRecord.endLaunch
  · split
    · exact h.discardTask
    · split
      · split
        · exact h.saveTeam.queueSaved
        · exact h.saveTeam
      · exact h.saveTeam

theorem State.Inv.launchSaved {l : Launch} (h : s.Inv) : (s.launchSaved l).Inv := h.modLaunch

theorem State.Inv.beginRestore {l : Launch} (h : s.Inv) :
    (s.beginRestore l).Inv := .launchRuns (.foldl (fun _ _ h => h.queueSaved) (.foldl (fun _ _ h => h.modTower) h.modLaunch))

/-! ## Machine/Firmware -/

theorem State.Inv.modMailbox {n : Nat} {g : Mailbox → Mailbox} (h : s.Inv) : (s.modMailbox n g).Inv := h.modPkg

theorem State.Inv.carryOut {n : Nat} {body : Mailbox → State → Served} (h : s.Inv) (hb : ∀ m : Mailbox, (body m s).2.Inv) :
    (s.carryOut n body).Inv := by
  have hs : (if s.pkg.displaced then refused s else body (s.asking n) s).2.Inv := by
    split
    · exact h
    · exact hb _
  simp only [State.carryOut]
  split
  · rename_i e
    exact (hs.after e).modMailbox
  · rename_i e
    exact hs.after e

theorem State.Inv.serveMail {n code : Nat} {body : Mailbox → State → Served}
    (h : s.Inv) (hb : ∀ m : Mailbox, (body m s).2.Inv) : (s.serveMail n code body).Inv := by
  simp only [State.serveMail]
  split
  · exact h
  · split
    · exact h.modMailbox
    · exact h.carryOut hb
    · exact h.modMailbox

theorem State.Inv.verifyCore {n : Nat} (h : s.Inv) : (s.verifyCore n).Inv := h.modPkg
theorem State.Inv.newImage {m : Mailbox} (h : s.Inv) : (s.newImage m).2.Inv := h.physRead
theorem State.Inv.modFw {n : Nat} {g : FwCore → FwCore} (h : s.Inv) : (s.modFw n g).Inv := h.modPkg
theorem State.Inv.addChange {tower : Nat} {c : Nat × Nat × Nat} (h : s.Inv) : (s.addChange tower c).Inv := h.modTower

theorem State.Inv.goFatal {code : Nat} (h : s.Inv) :
    (s.goFatal code).Inv := .ite h (.modPkg (.foldl (fun _ _ h => h.endLaunch) h))

theorem State.Inv.loseLine {bank line : Nat} (h : s.Inv) : (s.loseLine bank line).Inv := .ite h (.ite h.goFatal h.modPkg)

theorem State.Inv.stopCore {core : Nat} (h : s.Inv) :
    (s.stopCore core).Inv := .foldl (fun _ _ h => .ite h.endLaunch (.ite h (.forceStop h (.ite h.stopTeams h.stopWhole)))) h

theorem State.Inv.nameRetiring {core : Nat} (h : s.Inv) : (s.nameRetiring core).Inv := by
  simp only [State.nameRetiring, State.Inv]
  exact h.modCore

theorem State.Inv.finishCore {core : Nat} (h : s.Inv) : (s.finishCore core).Inv := by
  simp only [State.finishCore]
  exact h.writeBackAll.modCore.modPkg.errorRecord

theorem State.Inv.beginSlice {tower x y reason : Nat} (h : s.Inv) : (s.beginSlice tower x y reason).Inv := by
  simp only [State.beginSlice]
  refine .foldl (fun _ _ h => h.loseLine) (.modPkg ?_)
  simp only [State.Inv]
  refine State.Inv.wakeWhere ?_
  simp only [State.Inv]
  exact h.spillSlice.modTower

theorem State.Inv.removeSlice {tower : Nat} (h : s.Inv) : (s.removeSlice tower).Inv := by
  simp only [State.removeSlice]
  split
  · exact h.errorRecord.modTower
  · exact h

theorem State.Inv.setPort {n : Nat} {up : Bool} {lanes : Nat} (h : s.Inv) : (s.setPort n up lanes).Inv := h.modPkg

theorem State.Inv.beginChange {tower : Nat} {c : Nat × Nat × Nat} {rest : List (Nat × Nat × Nat)} (h : s.Inv) :
    (s.beginChange tower c rest).Inv := by
  simp only [State.beginChange]
  split
  · exact .ite h.modTower.nameRetiring h.modTower.modTower
  · split
    · exact h.modTower.beginSlice
    · exact h.modTower.modTower
  · exact h.modTower
  · exact h.modTower
  · exact h.modTower.modTower

theorem State.Inv.goOnCore {tower core how : Nat} (h : s.Inv) :
    (s.goOnCore tower core how).Inv := .ite h (.ite h.stopCore h.finishCore.modTower)

theorem State.Inv.moveChange {tower : Nat} (h : s.Inv) : (s.moveChange tower).Inv := by
  simp only [State.moveChange]
  split
  · exact .ite h.setPort.modTower h
  · exact h.setPort.modTower
  · exact .ite h.modPkg.modTower h
  · exact h.goOnCore
  · exact h.beginChange
  · exact h

/-! ## Machine/HostSide -/

theorem State.Inv.apertureWrite {off : Nat} {data : List Byte} (h : s.Inv) :
    (s.apertureWrite off data).Inv := .foldl (fun _ _ h => h.homeWrite) h.modPkg

theorem State.Inv.apertureRead {off n : Nat} (h : s.Inv) : (s.apertureRead off n).2.Inv := by
  simp only [State.apertureRead]
  refine .foldlSnd (fun r i h => ?_) h
  split
  · exact h
  · exact h
  · split
    · exact h
    · exact h.homeRead

theorem State.Inv.giveHost {r : List Byte × State} (h : r.2.Inv) : (State.giveHost r).Inv := h.modPkg

theorem State.Inv.applyPosted {fuel : Nat} (h : s.Inv) : (State.applyPosted fuel s).Inv := by
  induction fuel generalizing s with
  | zero => exact h
  | succ n ih =>
    simp only [State.applyPosted]
    split
    · exact h
    · exact ih h.modPkg.apertureWrite

theorem State.Inv.performPosted (h : s.Inv) : (s.performPosted).Inv := h.applyPosted

theorem State.Inv.hostAcquire {off : Nat} (h : s.Inv) : (s.hostAcquire off).Inv := by
  simp only [State.hostAcquire]
  split
  · exact h.serveTag
  · exact h

theorem State.Inv.hostHears {off : Nat} (h : s.Inv) : (s.hostHears off).Inv := by
  simp only [State.hostHears]
  split
  · split
    · exact h.modPkg
    · exact h
  · exact h

theorem State.Inv.hostFence (h : s.Inv) : (s.hostFence).Inv := .modPkg (.foldl (fun _ _ h => h.promote) h)

theorem State.Inv.hostAmo {op : AmoOp} {off len : Nat} {data : BitVec 64} {aq : Bool} (h : s.Inv) :
    (s.hostAmo op off len data aq).Inv := by
  simp only [State.hostAmo]
  split
  · exact .apertureWrite (.giveHost (.apertureRead (.ite h.hostAcquire h)))
  · exact .giveHost (.apertureRead (.ite h.hostAcquire h))

/-! ## Machine/Errors -/

theorem State.Inv.setErr {key n : Nat} (h : s.Inv) : (s.setErr key n).Inv := h.modPkg
theorem State.Inv.countIn {what code place : Nat} (h : s.Inv) : (s.countIn what code place).2.Inv := h.setErr

theorem State.Inv.noteCorrected {u : StorageUnit} (h : s.Inv) :
    (s.noteCorrected u).Inv := .ite h.setErr h.errorRecord.setErr.setErr

theorem State.Inv.thresholds {u : StorageUnit} (h : s.Inv) :
    (s.thresholds u).Inv := .ite (.ite h.countIn.addChange h.countIn) (.ite (.ite h.countIn.addChange h.countIn) h)

theorem State.Inv.corrected {u : StorageUnit} (h : s.Inv) : (s.corrected u).Inv := h.noteCorrected.thresholds

theorem State.Inv.markBad {u : StorageUnit} (h : s.Inv) : (s.markBad u).Inv := by
  simp only [State.markBad]
  split
  · exact h.modCore
  · exact .ite h.modLayer h.modTower
  · exact h.modTeam

theorem State.Inv.loseL1 {u : StorageUnit} {core : Nat} (h : s.Inv) : (s.loseL1 u core).Inv := by
  simp only [State.loseL1]
  split
  · exact h
  · exact .ite h.dropLine.corrected h.dropLine.loseLine

theorem State.Inv.strike {u : StorageUnit} (h : s.Inv) : (s.strike u).Inv := .ite h.loseL1 (.ite h.markBad (.ite h.loseLine h))

theorem State.Inv.strikeCore {u : StorageUnit} (h : s.Inv) : (s.strikeCore u).Inv := by
  simp only [State.strikeCore]
  split
  · exact .ite h.modCore.addChange h.modCore
  · exact .ite h.addChange h

theorem State.Inv.consume {u : StorageUnit} {fid : Nat} {lanes : Mask} (h : s.Inv) : (s.consume u fid lanes).Inv := by
  simp only [State.consume]
  split
  · exact h
  · split
    · exact h.failOp
    · exact h.postTrap

theorem State.Inv.uncorrectable {u : StorageUnit} {fid : Nat} {lanes : Mask} (h : s.Inv) :
    (s.uncorrectable u fid lanes).Inv := h.errorRecord.strike.strikeCore.consume

theorem State.Inv.setRetries {kind n k : Nat} (h : s.Inv) : (s.setRetries kind n k).Inv := h.modPkg

theorem State.Inv.linkRecord {sev kind twr n event lanes : Nat} (h : s.Inv) :
    (s.linkRecord sev kind twr n event lanes).Inv := h.errorRecord

theorem State.Inv.retry {kind twr n peer lanes : Nat} (h : s.Inv) :
    (s.retry kind twr n peer lanes).Inv := .ite h.setRetries h.linkRecord.setRetries

theorem State.Inv.pairBeats {core : Nat} (h : s.Inv) : (s.pairBeats core).Inv := by
  simp only [State.pairBeats]
  split
  · exact .ite h h.emit.modPkg.emit
  · exact h

theorem State.Inv.reloadQueues (h : s.Inv) : (s.reloadQueues).Inv := h.of_mem rfl

theorem State.Inv.coreFails {core : Nat} (h : s.Inv) : (s.coreFails core).Inv := by
  unfold State.coreFails
  extract_lets recent noted recorded ok restarted
  have hr : restarted.Inv := h.modFw.errorRecord.modFw
  exact .ite h.modFw.errorRecord.goFatal (.ite hr.reloadQueues (.ite hr.addChange hr))

/-! ## Machine/Control -/

theorem State.Inv.transfer {x : Iss} {tgt : Nat → Nat} {link : Bool} (h : s.Inv) :
    (x.transfer s tgt link).Inv := .moved (.modFibre (.ite h.writeRegs h))

theorem Iss.Inv.branch {x : Iss} {tgt : Nat → Nat} {link : Bool} (h : x.Inv) :
    (x.branch tgt link).Inv := .ite .trap h.state.transfer

theorem State.Inv.fetchTargets {x : Iss} {tgt : Nat → Nat} {ls : List Nat} (h : s.Inv) : (x.fetchTargets tgt ls s).2.Inv := by
  induction ls generalizing s with
  | nil => exact h
  | cons L ls ih => exact ih h.fetch

theorem Iss.Inv.calli {x : Iss} (h : x.Inv) : (x.calli).Inv := by
  simp only [Iss.calli]
  split
  · exact .trap
  · split
    · exact .trap
    · exact .ite (.hold h.state.fetchTargets.holdOn) (.ite .trap (.ite .trap (.ite .trap h.state.fetchTargets.transfer)))

theorem State.Inv.yieldSlot {f : Fibre} {t : Team} (h : s.Inv) : (s.yieldSlot f t).Inv := by
  simp only [State.yieldSlot]
  split
  · exact h.modFibre.setCurrent
  · exact h

theorem State.raiseHere_inv {cause detail : Nat} (h : s.Inv) : NextInv (s.raiseHere cause detail) := by
  simp only [State.raiseHere]
  split
  · exact .fault
  · exact .next h.raise

/-! ## Machine/CrossLane -/

theorem Iss.Inv.cross {x : Iss} {lam n : Nat} {own : Nat → Nat} {F : Nat → List Nat → Nat × Bool} (h : x.Inv) :
    (x.cross lam n own F).Inv := h.fixed

/-! ## Machine/Sfn -/

theorem Iss.Inv.sfn {x : Iss} {code : Nat} (h : x.Inv) : (x.sfn code).Inv := h.putFlagsVar

/-! ## Machine/Issue -/

theorem NextInv.onNext {o : Host.Outcome State Fault Refusal} {g : State → Host.Outcome State Fault Refusal} (h : NextInv o)
    (hg : ∀ s : State, s.Inv → NextInv (g s)) : NextInv (onNext o g) := by
  cases h with
  | next h => exact hg _ h
  | fault => exact .fault
  | refused => exact .refused

theorem State.Inv.pathB {core : Nat} {l : Launch} {k : Kernel} {wa : BitVec 160} {ips : List Nat} (h : s.Inv) :
    (s.pathB core l k wa ips).2.Inv := by
  induction ips generalizing s l with
  | nil => exact h
  | cons ip ips ih =>
    simp only [State.pathB]
    split
    · exact ih h
    · split
      · rename_i e
        have h := h.fetch.after e
        split
        · exact h
        · exact ih h
      · rename_i e
        exact h.fetch.after e

theorem State.switchTest_inv {f : Fibre} {t : Team} {marked : Bool} (h : s.Inv) :
    (s.switchTest f t marked).Inv := .ite (.go h) (.ite (.leave h.leave) (.ite (.leave h.yieldSlot) (.go h.modFibre)))

/-! ## Machine/Step -/

theorem State.Inv.applyBeats (h : s.Inv) : (s.applyBeats).Inv := .foldl (fun _ _ h => h.applyHeld) h
theorem State.Inv.passCycle (h : s.Inv) : (s.passCycle).Inv := .applyBeats (h.performPosted.of_mem rfl)

/-! ## The instructions and the events

An instruction whose body is an operation with a lemma above has its arm in `State.Inv.exec`; the others have a lemma each. -/

theorem execRequestDispatch_inv {r : Nat} (h : s.Inv) : NextInv (execRequestDispatch r s) := by
  simp only [execRequestDispatch]
  split
  · split
    · exact .ite (.next h.sendReq) (.next h)
    · exact .next h
  · exact .next h

theorem execHomeSliceRequest_inv {r : Nat} (h : s.Inv) : NextInv (execHomeSliceRequest r s) := by
  simp only [execHomeSliceRequest]
  split
  · split
    · exact .ite (.next h.performReq) (.next h)
    · exact .next h
  · exact .next h

theorem execLoadResponse_inv {n : Nat} (h : s.Inv) : NextInv (execLoadResponse n s) := by
  simp only [execLoadResponse]
  split
  · split
    · exact .ite (.next h.answerOp) (.next h)
    · exact .next h
  · split
    · exact .ite (.next h.modReq) (.next h)
    · exact .next h

theorem execResultWriteback_inv {r : Nat} (h : s.Inv) : NextInv (execResultWriteback r s) := by
  simp only [execResultWriteback]
  split
  · split
    · exact .next h.deliver
    · split
      · exact .ite (.next h.answerCall) (.next h)
      · exact .next h
  · exact .next h

theorem execRemoteTimeout_inv {r : Nat} (h : s.Inv) : NextInv (execRemoteTimeout r s) := by
  simp only [execRemoteTimeout]
  split
  · split
    · exact .ite (.next h.failOp) (.next h)
    · exact .next h
  · exact .next h

theorem execTrapEntry_inv {f : Nat} (h : s.Inv) : NextInv (execTrapEntry f s) := by
  simp only [execTrapEntry]
  split
  · split
    · exact .ite (.next h.takeTrap) (.next h)
    · exact .next h
  · exact .next h

theorem execWaddrTimeout_inv {f : Nat} (h : s.Inv) : NextInv (execWaddrTimeout f s) := by
  simp only [execWaddrTimeout]
  split
  · exact .next h.dropWatches.wakePast
  · exact .next h

theorem execMma_inv {e : Enc} (h : s.Inv) : NextInv (execMma e s) :=
  h.issue (fun _ h => .ite .badValue (h.intoQueue (.ite h.requestLease (.next h.state.spendLease.enqueueOn))))

theorem execLeaseGrant_inv {core : Nat} (h : s.Inv) : NextInv (execLeaseGrant core s) := by
  simp only [execLeaseGrant]
  split
  · exact .next h
  · exact .next (.foldl (fun _ _ h => h.wake) h.modTeam.modCore)

theorem execAdrain_inv {e : Enc} (h : s.Inv) : NextInv (execAdrain e s) := by
  unfold execAdrain
  refine h.issue fun x h => h.intoQueue ?_
  extract_lets dst code returns source work b i off soff rows size
  refine .ite h.enqueue (.ite .badValue ?_)
  split
  · rename_i e
    exact Iss.Inv.bufTrap.of_some e
  · split
    · rename_i e
      exact Iss.Inv.pieceTrap.of_some e
    · exact h.enqueue

theorem execTld_inv {e : Enc} (h : s.Inv) : NextInv (execTld e s) := by
  simp only [execTld]
  refine h.issue fun x h => Iss.Inv.intoQueue h ?_
  split
  · rename_i e
    exact Iss.Inv.rowTrap.of_some e
  · exact h.enqueue

theorem execTst_inv {e : Enc} (h : s.Inv) : NextInv (execTst e s) := by
  simp only [execTst]
  refine h.issue fun x h => Iss.Inv.intoQueue h ?_
  split
  · rename_i e
    exact Iss.Inv.rowTrap.of_some e
  · exact h.enqueue

theorem execBwst_inv {e : Enc} (h : s.Inv) : NextInv (execBwst e s) :=
  h.issue (fun _ h => h.intoQueue (.ite .trap (.ite (.hold h.state) (.ite (.hold h.state.leave) h.enqueue))))

theorem execBellwetherBeat_inv {tower entry : Nat} (h : s.Inv) : NextInv (execBellwetherBeat tower entry s) := by
  simp only [execBellwetherBeat]
  split
  · exact .next h.transmit
  · exact .next h

theorem execBeatCrcError_inv {tower : Nat} (h : s.Inv) : NextInv (execBeatCrcError tower s) := by
  simp only [execBeatCrcError]
  split
  · exact .next h
  · split
    · exact .next h.transmit
    · exact .next h

theorem execLayerWake_inv {die : Nat} (h : s.Inv) : NextInv (execLayerWake die s) := by
  simp only [execLayerWake]
  split
  · refine .next ?_
    simp only [State.Inv]
    exact h.modLayer
  · exact .next h

theorem execAm_inv {e : Enc} (h : s.Inv) : NextInv (execAm e s) :=
  h.issue (fun _ h => h.intoQueue (.ite .badValue (.ite .badValue (.ite .badValue (.ite .badValue (.ite .trap h.enqueue))))))

theorem execPutsigSignal_inv {op : Nat} (h : s.Inv) : NextInv (execPutsigSignal op s) := by
  simp only [execPutsigSignal]
  split
  · exact .ite (.next (h.engTurn fun _ => Eng.signal_inv h)) (.next h)
  · exact .next h

theorem execAppRowStore_inv {op : Nat} (h : s.Inv) : NextInv (execAppRowStore op s) := by
  simp only [execAppRowStore]
  split
  · exact .ite (.next (h.engTurn fun _ => Eng.appRows_inv h)) (.next h)
  · exact .next h

theorem execSwr_inv {e : Enc} (h : s.Inv) : NextInv (execSwr e s) := by
  simp only [execSwr]
  refine h.issue fun x h => .next ?_
  simp only [State.Inv]
  exact h.state.modFibre

theorem execTcommit_inv {e : Enc} (h : s.Inv) : NextInv (execTcommit e s) := by
  simp only [execTcommit]
  refine h.issue fun x h => ?_
  split
  · exact h.arriving
  · split
    · rename_i e
      exact h.held.of_some e
    · exact .next h.state.writeBackAll

theorem execRdr_inv {e : Enc} (h : s.Inv) : NextInv (execRdr e s) := by
  simp only [execRdr]
  refine h.issue fun x h => ?_
  split
  · exact .badValue
  · split
    · rename_i e
      exact h.held.of_some e
    · exact .moved h.state.writeBackAll.modTower.exitLanes

theorem execCollectiveComplete_inv {m : Nat} (h : s.Inv) : NextInv (execCollectiveComplete m s) := by
  simp only [execCollectiveComplete]
  split
  · exact .ite (.next h.completeMember) (.next h)
  · exact .next h

theorem execCollectiveTimeout_inv {m : Nat} (h : s.Inv) : NextInv (execCollectiveTimeout m s) := by
  simp only [execCollectiveTimeout]
  split
  · exact .ite (.next h.modMember.completeMember) (.next h)
  · exact .next h

theorem execCollectivePacket_inv {p : Nat} (h : s.Inv) : NextInv (execCollectivePacket p s) := by
  simp only [execCollectivePacket]
  split
  · exact .ite (.next h.packetAt) (.next h)
  · exact .next h

theorem execCollectiveReturn_inv {p : Nat} (h : s.Inv) : NextInv (execCollectiveReturn p s) := by
  simp only [execCollectiveReturn]
  split
  · exact .ite (.next h.packetBack) (.next h)
  · exact .next h

theorem execCombinationTimeout_inv {c : Nat} (h : s.Inv) : NextInv (execCombinationTimeout c s) := by
  simp only [execCombinationTimeout]
  split
  · exact .next h
  · split
    · exact .next (.errorRecord (.dropStale (h.of_mem rfl)))
    · split
      · exact .next (.errorRecord (h.of_mem rfl))
      · exact .next h

theorem execZunosPacket_inv {p : Packet} (h : s.Inv) : NextInv (execZunosPacket p s) := by
  simp only [execZunosPacket]
  split
  · exact .next h.countLink
  · split
    · exact .next h
    · split
      · exact .next (.ite h.remoteRead h)
      · exact .next (.ite h.remoteWrite.hearPair.respond h)
      · exact .next (.ite h.remoteRmw.respond h)
      · exact .next h.remoteMessage
      · exact .next h.remoteColl
      · exact .next (.ite h.remoteRmw.respond h)
      · exact .next h

theorem execAmDelivery_inv {m : Nat} (h : s.Inv) : NextInv (execAmDelivery m s) := by
  simp only [execAmDelivery]
  split
  · exact .next h
  · split
    · exact .next h
    · split
      · exact .ite (.next (h.of_mem rfl)) (.next (.startHandler (h.of_mem rfl)))
      · exact .next (h.of_mem rfl)

theorem execHenDeposit_inv {tower : Nat} (h : s.Inv) : NextInv (execHenDeposit tower s) := by
  simp only [execHenDeposit]
  split
  · exact .next h
  · exact .next h.modTower.deposit

theorem execHenFlush_inv {tower launch : Nat} (h : s.Inv) : NextInv (execHenFlush tower launch s) := by
  simp only [execHenFlush]
  split
  · exact .next h
  · exact .ite (.next (.foldl (fun _ _ h => h.launchKey) h)) (.next h)

theorem execGatherTimerLapse_inv {launch : Nat} (h : s.Inv) : NextInv (execGatherTimerLapse launch s) := by
  simp only [execGatherTimerLapse]
  split
  · exact .ite (.next h.launchBatch) (.next h)
  · exact .next h

theorem execTeamDescend_inv {q : Nat} (h : s.Inv) : NextInv (execTeamDescend q s) := by
  simp only [execTeamDescend]
  split
  · exact .ite (.next h.descend) (.next h)
  · split
    · exact .ite (.next h.draw) (.next h)
    · exact .next h

theorem execTeamAdmission_inv {q : Nat} (h : s.Inv) : NextInv (execTeamAdmission q s) := by
  simp only [execTeamAdmission]
  split
  · exact .ite (.next (.foldl (fun _ _ h => h.admitTeam) h)) (.next h)
  · exact .next h

theorem execTeamSteal_inv {q core : Nat} (h : s.Inv) : NextInv (execTeamSteal q core s) := by
  simp only [execTeamSteal]
  split
  · exact .ite (.ite (.next h.setLevels) (.next (.foldl (fun _ _ h => h.admitTeam) h.setLevels))) (.next h)
  · exact .next h

theorem execTeamEnd_inv {team : Nat} (h : s.Inv) : NextInv (execTeamEnd team s) := by
  simp only [execTeamEnd]
  split
  · exact .ite (.next h.endTeam) (.next h)
  · split
    · exact .ite (.next h.endAway) (.next h)
    · exact .next h

theorem execTaskStart_inv {entry : Nat} (h : s.Inv) : NextInv (execTaskStart entry s) := by
  simp only [execTaskStart]
  split
  · exact .next h
  · split
    · exact .next h
    · split
      · exact .next h
      · split
        · exact .next h.beginTask
        · exact .next h

theorem execTaskCommit_inv {team : Nat} (h : s.Inv) : NextInv (execTaskCommit team s) := by
  simp only [execTaskCommit]
  split
  · exact .next h
  · split
    · exact .next h
    · split
      · split
        · rename_i e
          exact .next (h.tryLines.after e).taskFails
        · rename_i e
          exact .next (h.tryLines.after e).modTask
        · rename_i e
          exact .next (h.tryLines.after e).commitTask
      · exact .next h

theorem execLaunchComplete_inv {l : Nat} (h : s.Inv) : NextInv (execLaunchComplete l s) := by
  simp only [execLaunchComplete]
  split
  · exact .next h
  · split
    · exact .next h.dropLaunch.writeCompletion.noteIdle
    · exact .next h

theorem execWatchdogExpiry_inv {l : Nat} (h : s.Inv) : NextInv (execWatchdogExpiry l s) := by
  simp only [execWatchdogExpiry]
  split
  · exact .next h
  · exact .ite (.next h.errorRecord.endLaunch) (.next h)

theorem execKick_inv {q : Nat} (h : s.Inv) : NextInv (execKick q s) := by
  simp only [execKick]
  split
  · exact .ite (.next h.takeKick) (.next h)
  · exact .next h

theorem execIdleTimeout_inv {q : Nat} (h : s.Inv) : NextInv (execIdleTimeout q s) := by
  simp only [execIdleTimeout]
  split
  · exact .ite (.next h.modQueue) (.next h)
  · exact .next h

theorem execQcbSaveComplete_inv {q : Nat} (h : s.Inv) : NextInv (execQcbSaveComplete q s) := by
  simp only [execQcbSaveComplete]
  split
  · exact .ite (.next h.unmapQueue.fillSlots) (.next h)
  · exact .next h

theorem execEprioAgeing_inv {q : Nat} (h : s.Inv) : NextInv (execEprioAgeing q s) := by
  simp only [execEprioAgeing]
  split
  · exact .ite (.next h.modQueue) (.next h)
  · exact .next h

theorem execWaitRecheck_inv {q : Nat} (h : s.Inv) : NextInv (execWaitRecheck q s) := by
  simp only [execWaitRecheck]
  split
  · split
    · split
      · exact .next h.waitTest
      · exact .next h.queueError
    · exact .next h
  · exact .next h

theorem execAdmissionWaitPreempt_inv {l : Nat} (h : s.Inv) : NextInv (execAdmissionWaitPreempt l s) := by
  simp only [execAdmissionWaitPreempt]
  split
  · exact .next h
  · exact .ite (.next h) (.next (h.getD (.findSome fun _ => h.stopVictim)))

theorem execPreemptionStop_inv {l : Nat} (h : s.Inv) : NextInv (execPreemptionStop l s) := by
  simp only [execPreemptionStop]
  split
  · exact .next h
  · split
    · exact .next h
    · split
      · exact .next h.stopOne
      · exact .next h.launchSaved

theorem execRestore_inv {l : Nat} (h : s.Inv) : NextInv (execRestore l s) := by
  simp only [execRestore]
  split
  · exact .next h
  · exact .ite (.next h) (.ite (.next h.beginRestore) (.next h.restoreFails))

theorem execPackageReset_inv (h : s.Inv) : NextInv (execPackageReset s) := by
  unfold execPackageReset
  extract_lets blank cleared core kept verified booted
  have hc : cleared.Inv := h
  have hk : kept.Inv := hc.modPkg
  have hb : booted.Inv := .ite hk.verifyCore (.foldl (fun _ _ h => h.verifyCore) hk.verifyCore)
  exact .ite (.next hb.modPkg) (.next hb.modPkg)

theorem done_inv (h : s.Inv) : (done s).2.Inv := h
theorem refused_inv (h : s.Inv) : (refused s).2.Inv := h
theorem goesOn_inv (h : s.Inv) : (goesOn s).2.Inv := h
theorem State.Inv.attestFor {m : Mailbox} (h : s.Inv) : (State.attestFor m s).2.Inv := h.modPkg

theorem State.Inv.acceptFor {m : Mailbox} (h : s.Inv) : (State.acceptFor m s).2.Inv := by
  simp only [State.acceptFor]
  split
  · exact refused_inv h
  · exact done_inv h.modPkg

theorem State.Inv.pairFor {m : Mailbox} (h : s.Inv) : (State.pairFor m s).2.Inv := by
  simp only [State.pairFor]
  split
  · exact refused_inv h
  · exact done_inv h.modPkg

theorem State.Inv.registerFor {m : Mailbox} (h : s.Inv) : (State.registerFor m s).2.Inv := by
  simp only [State.registerFor]
  split
  · exact refused_inv h
  · split
    · rename_i e
      exact refused_inv (h.virtRead.after e)
    · rename_i e
      split
      · exact refused_inv (h.virtRead.after e).fresh
      · refine done_inv (.noteIdle ?_)
        simp only [State.Inv]
        exact (h.virtRead.after e).fresh

theorem State.Inv.unregisterFor {m : Mailbox} (h : s.Inv) : (State.unregisterFor m s).2.Inv := by
  simp only [State.unregisterFor]
  split
  · exact refused_inv h
  · refine done_inv (.fillSlots ?_)
    simp only [State.Inv]
    exact State.Inv.ite h.saveQcb h

theorem State.Inv.plimitFor {m : Mailbox} (h : s.Inv) : (State.plimitFor m s).2.Inv := by
  simp only [State.plimitFor]
  split
  · exact refused_inv h
  · exact done_inv h.modPkg.fillSlots

theorem State.Inv.preemptFor {m : Mailbox} (h : s.Inv) : (State.preemptFor m s).2.Inv := by
  simp only [State.preemptFor]
  split
  · exact refused_inv h
  · split
    · rename_i e
      exact done_inv (h.stopWhole.of_some e)
    · exact refused_inv h

theorem State.Inv.invalFor {m : Mailbox} (h : s.Inv) : (State.invalFor m s).2.Inv := by
  simp only [State.invalFor]
  split
  · exact done_inv h.invalidate.findBells
  · exact goesOn_inv h

theorem State.Inv.apertureFor {m : Mailbox} (h : s.Inv) : (State.apertureFor m s).2.Inv := by
  simp only [State.apertureFor]
  split
  · exact refused_inv h
  · exact done_inv h.modPkg

theorem State.Inv.updateFor {m : Mailbox} (h : s.Inv) : (State.updateFor m s).2.Inv := by
  simp only [State.updateFor]
  split
  · exact refused_inv h
  · split
    · split
      · exact refused_inv h.newImage
      · exact goesOn_inv h.newImage.modPkg.modFw
    · split
      · exact refused_inv h.modFw
      · exact done_inv h.modFw.modFw.modPkg

theorem State.Inv.retireFor {m : Mailbox} (h : s.Inv) : (State.retireFor m s).2.Inv := by
  simp only [State.retireFor]
  split
  · exact done_inv h.addChange
  · split
    · exact done_inv h.addChange
    · exact refused_inv h

theorem State.Inv.otherFor {n : Nat} {m : Mailbox} (h : s.Inv) : (State.otherFor n m s).2.Inv := by
  simp only [State.otherFor]
  split
  · split
    · exact done_inv h.modPkg
    · exact refused_inv h
  · exact h

theorem execSliceRemapDrained_inv (h : s.Inv) : NextInv (execSliceRemapDrained s) := by
  simp only [execSliceRemapDrained]
  split
  · exact .next h.removeSlice
  · exact .next h

theorem execInServiceChangeStart_inv (h : s.Inv) : NextInv (execInServiceChangeStart s) := by
  simp only [execInServiceChangeStart]
  split
  · exact .next h.moveChange
  · exact .next h

theorem execAppCoreAccess_inv {a : AppAccess} (h : s.Inv) : NextInv (execAppCoreAccess a s) := by
  simp only [execAppCoreAccess]
  split
  · exact .next h.hostHears.apertureRead.giveHost
  · exact .next h.apertureWrite
  · exact .next h.hostAmo
  · exact .ite (.next h.hostFence) (.next h)

theorem execPatrolScrub_inv {u : StorageUnit} {found : Nat} (h : s.Inv) : NextInv (execPatrolScrub u found s) := by
  simp only [execPatrolScrub]
  split
  · exact .next h
  · split
    · exact .next h.corrected
    · exact .next h.uncorrectable
    · exact .next h

theorem execBridgeRetrain_inv {t u lanes : Nat} (h : s.Inv) : NextInv (execBridgeRetrain t u lanes s) :=
  .ite (.ite (.next h.setRetries.linkRecord.goFatal) (.next h.setRetries.modPkg.linkRecord)) (.next h)

theorem execBellwetherChannelTest_inv {tower : Nat} {failed : BitVec 8} (h : s.Inv) :
    NextInv (execBellwetherChannelTest tower failed s) := by
  simp only [execBellwetherChannelTest]
  split
  · exact .next h
  · exact .next h.stopTower.modTower.applyHeld.errorRecord

theorem execHeartbeat_inv (h : s.Inv) : NextInv (execHeartbeat s) := by
  simp only [execHeartbeat]
  split
  · exact .next h.modFw.pairBeats
  · exact .next h

theorem execHeartbeatTimeout_inv (h : s.Inv) : NextInv (execHeartbeatTimeout s) := by
  simp only [execHeartbeatTimeout]
  split
  · exact .next h.coreFails
  · exact .next h

theorem execStandbyTakeover_inv (h : s.Inv) : NextInv (execStandbyTakeover s) := by
  simp only [execStandbyTakeover]
  split
  · exact .next h
  · exact .ite (.next h) (.ite (.next h.modPkg) (.next h.modPkg))

theorem execNapExpiry_inv {f : Nat} (h : s.Inv) : NextInv (execNapExpiry f s) := by
  simp only [execNapExpiry]
  split
  · exact .next h.wakePast
  · exact .next h

/-- Every instruction and every event keeps memory canonical. -/
theorem State.Inv.exec {i : Instr} (h : s.Inv) : NextInv (exec i s) := by
  cases i with
  | bra _ => exact h.issue fun _ h => h.branch
  | brx _ => exact h.issue fun _ h => h.branch
  | call _ => exact h.issue fun _ h => h.branch
  | calli _ => exact h.issue fun _ h => h.calli
  | ret _ => exact h.issue fun _ h => h.branch
  | exit _ => exact h.issue fun _ h => .moved h.state.exitLanes
  | yield _ => exact h.issue fun _ h => .next h.state.yieldSlot
  | nop _ => exact h.issue fun _ h => .next h.state
  | nopEntry _ => exact h.issue fun _ h => .next h.state
  | nap _ => exact h.issue fun _ h => .ite (.next h.state) h.state.park
  | sgw _ => exact h.issue fun _ h => .ite (.next h.state.modFibre) .badValue
  | ipget _ => exact h.issue fun _ h => h.fixed
  | mov _ => exact h.issue fun _ h => h.bits1
  | movl _ => exact h.issue fun _ h => h.bits1
  | add _ => exact h.issue fun _ h => h.map2
  | sub _ => exact h.issue fun _ h => h.map2
  | adds _ => exact h.issue fun _ h => h.map2
  | subs _ => exact h.issue fun _ h => h.map2
  | addc _ => exact h.issue fun _ h => h.carry
  | subb _ => exact h.issue fun _ h => h.carry
  | mul _ => exact h.issue fun _ h => h.map2
  | mulhi _ => exact h.issue fun _ h => h.map2
  | mad _ => exact h.issue fun _ h => h.map3
  | madw _ => exact h.issue fun _ h => h.put
  | div _ => exact h.issue fun _ h => h.map2Var
  | rem _ => exact h.issue fun _ h => h.map2Var
  | min _ => exact h.issue fun _ h => h.map2
  | max _ => exact h.issue fun _ h => h.map2
  | abs _ => exact h.issue fun _ h => h.map1
  | neg _ => exact h.issue fun _ h => h.map1
  | and _ => exact h.issue fun _ h => h.bits2
  | or _ => exact h.issue fun _ h => h.bits2
  | xor _ => exact h.issue fun _ h => h.bits2
  | andn _ => exact h.issue fun _ h => h.bits2
  | not _ => exact h.issue fun _ h => h.bits1
  | shl _ => exact h.issue fun _ h => h.shift
  | shr _ => exact h.issue fun _ h => h.shift
  | sar _ => exact h.issue fun _ h => h.shift
  | dsh _ => exact h.issue fun _ h => h.put
  | rot _ => exact h.issue fun _ h => h.shift
  | bfe _ => exact h.issue fun _ h => h.put
  | bfi _ => exact h.issue fun _ h => h.put
  | popc _ => exact h.issue fun _ h => h.bits1
  | clz _ => exact h.issue fun _ h => h.bits1
  | ctz _ => exact h.issue fun _ h => h.bits1
  | brev _ => exact h.issue fun _ h => h.bits1
  | bsel _ => exact h.issue fun _ h => h.put
  | sad _ => exact h.issue fun _ h => h.put
  | cmp _ => exact h.issue fun _ h => h.put
  | csel _ => exact h.issue fun _ h => h.put
  | pand _ => exact h.issue fun _ h => h.putPred
  | por _ => exact h.issue fun _ h => h.putPred
  | pxor _ => exact h.issue fun _ h => h.putPred
  | pnot _ => exact h.issue fun _ h => h.putPred
  | psetNe _ => exact h.issue fun _ h => h.putPred
  | psetMask _ => exact h.issue fun _ h => h.putPred
  | pget _ => exact h.issue fun _ h => h.put
  | voteAny _ => exact h.issue fun _ h => h.cross
  | voteAll _ => exact h.issue fun _ h => h.cross
  | voteBall _ => exact h.issue fun _ h => .ite h.fixed h.cross
  | voteEq _ => exact h.issue fun _ h => h.cross
  | shfl _ => exact h.issue fun _ h => h.cross
  | lred _ => exact h.issue fun _ h => h.cross
  | lscan _ => exact h.issue fun _ h => h.cross
  | xmatch _ => exact h.issue fun _ h => h.cross
  | elect _ => exact h.issue fun _ h => h.cross
  | fadd _ => exact h.issue fun _ h => h.putFlags
  | fsub _ => exact h.issue fun _ h => h.putFlags
  | fmul _ => exact h.issue fun _ h => h.putFlags
  | ffma _ => exact h.issue fun _ h => h.putFlags
  | fmin _ => exact h.issue fun _ h => h.putFlags
  | fmax _ => exact h.issue fun _ h => h.putFlags
  | fminx _ => exact h.issue fun _ h => h.putFlags
  | fmaxx _ => exact h.issue fun _ h => h.putFlags
  | fcmp _ => exact h.issue fun _ h => h.putFlags
  | fclamp _ => exact h.issue fun _ h => h.putFlags
  | frnd _ => exact h.issue fun _ h => h.putFlags
  | fscale _ => exact h.issue fun _ h => h.putFlags
  | fclass _ => exact h.issue fun _ h => h.putFlags
  | fdot2 _ => exact h.issue fun _ h => h.putFlags
  | fdot4 _ => exact h.issue fun _ h => h.putFlags
  | fdiv _ => exact h.issue fun _ h => h.putFlagsVar
  | rcp _ => exact h.issue fun _ h => h.sfn
  | rsqrt _ => exact h.issue fun _ h => h.sfn
  | sqrt _ => exact h.issue fun _ h => h.sfn
  | exp2 _ => exact h.issue fun _ h => h.sfn
  | log2 _ => exact h.issue fun _ h => h.sfn
  | sin _ => exact h.issue fun _ h => h.sfn
  | cos _ => exact h.issue fun _ h => h.sfn
  | tanh _ => exact h.issue fun _ h => h.sfn
  | sigm _ => exact h.issue fun _ h => h.sfn
  | gelu _ => exact h.issue fun _ h => h.sfn
  | silu _ => exact h.issue fun _ h => h.sfn
  | erf _ => exact h.issue fun _ h => h.sfn
  | cvt _ => exact h.issue fun _ h => h.fixed
  | cvtSr _ => exact h.issue fun _ h => h.withDraw
  | mxq _ => exact h.issue fun _ h => h.variable
  | mxd _ => exact h.issue fun _ h => h.putFlagsVar
  | rand _ => exact h.issue fun _ h => h.withDraw
  | ld _ => exact h.issue fun _ h => h.load
  | st _ => exact h.issue fun _ h => h.access
  | ldu _ => exact h.issue fun _ h => h.load
  | lds _ => exact h.issue fun _ h => h.spLoad
  | sts _ => exact h.issue fun _ h => h.spStore
  | ldc _ => exact h.issue fun _ h => h.spLoad
  | stc _ => exact h.issue fun _ h => h.spStore
  | ldfe _ => exact h.issue fun _ h => h.fullEmpty
  | stfe _ => exact h.issue fun _ h => h.fullEmpty
  | fsetEmpty _ => exact h.issue fun _ h => h.fset
  | fsetFull _ => exact h.issue fun _ h => h.fset
  | cbcfg _ => exact h.issue fun _ h => h.cbcfg
  | cbtake _ => exact h.issue fun _ h => h.cbTake
  | cbtakeFill _ => exact h.issue fun _ h => h.cbTake
  | cbgive _ => exact h.issue fun _ h => h.cbGive
  | cbgiveFill _ => exact h.issue fun _ h => h.cbGiveFill
  | pfL2 _ => exact h.issue fun _ h => h.prefetch
  | pfL1 _ => exact h.issue fun _ h => h.prefetch
  | cinv _ => exact h.issue fun _ h => h.cacheLines fun _ _ h => h.writeBackAt.dropLine
  | cinvAll _ => exact h.issue fun _ h => h.afterAll (.next h.state.invalidateAll)
  | cwb _ => exact h.issue fun _ h => h.cacheLines fun _ _ h => h.writeBackAt.materialise
  | cwbAll _ => exact h.issue fun _ h => h.afterAll (.next h.state.writeBackAll)
  | atom _ => exact h.issue fun _ h => h.rmw
  | atoms _ => exact h.issue fun _ h => h.spadAtomic
  | red _ => exact h.issue fun _ h => h.rmw
  | reds _ => exact h.issue fun _ h => h.spadAtomic
  | xadd _ => exact h.issue fun _ h => h.rmw
  | fenceAcq _ => exact h.issue fun _ h => h.fence
  | fenceRel _ => exact h.issue fun _ h => h.fence
  | fenceAr _ => exact h.issue fun _ h => h.fence
  | qfence _ => exact h.issue fun _ h => h.qfence
  | bar _ => exact h.issue fun _ h => h.teamBarrier
  | bara _ => exact h.issue fun _ h => h.teamBarrier
  | barw _ => exact h.issue fun _ h => .ite (.next h.state) h.state.park
  | cbar _ => exact h.issue fun _ h => h.arriving
  | fbar _ => exact h.issue fun _ h => h.arriving
  | waddr _ => exact h.issue fun _ h => h.waddr
  | fgive _ => exact h.issue fun _ h => h.fgive
  | fclaimSync _ => exact h.issue fun _ h => h.fclaim
  | fclaimSet _ => exact h.issue fun _ h => h.fclaim
  | fwin _ => exact h.issue fun _ h => h.variable
  | mma _ => exact execMma_inv h
  | lease _ => exact h.issue fun _ h => .ite (.next h.state) h.requestLease
  | unlease _ => exact h.issue fun _ h => .ite (.next h.state.modTeam.releaseLease) (.next h.state)
  | azero _ => exact h.issue fun _ h => h.intoQueue h.enqueue
  | adrain _ => exact execAdrain_inv h
  | aswap _ => exact h.issue fun _ h => h.intoQueue h.enqueue
  | ald _ => exact h.issue fun _ h => h.image
  | ast _ => exact h.issue fun _ h => h.image
  | aflag _ => exact h.issue fun _ h => h.intoQueue h.enqueue
  | tld _ => exact execTld_inv h
  | tst _ => exact execTst_inv h
  | tcvt _ => exact h.issue fun _ h => h.intoQueue h.enqueue
  | bld _ => exact h.issue fun _ h => h.bslice
  | bldBc _ => exact h.issue fun _ h => h.bslice
  | cp _ => exact h.issue fun _ h => h.copy
  | cpg _ => exact h.issue fun _ h => h.copy
  | cps _ => exact h.issue fun _ h => h.copy
  | cp2d _ => exact h.issue fun _ h => h.copy
  | cpcb _ => exact h.issue fun _ h => h.cpcb
  | cpw _ => exact h.issue fun _ h => .ite .badValue (.next h.state.enqueueOn.answerWaits)
  | bwst _ => exact execBwst_inv h
  | bwld _ => exact h.issue fun _ h => .ite (.hold h.state) (.ite .trap (.ite .trap (.ite .trap h.variable)))
  | bwbar _ => exact h.issue fun _ h => .next h.state.enqueueOn.answerWaits
  | bwslot _ => exact h.issue fun _ h => h.variable
  | bwslotN _ => exact h.issue fun _ h => h.variable
  | am _ => exact execAm_inv h
  | put _ => exact h.issue fun _ h => h.oneSided
  | putsig _ => exact h.issue fun _ h => h.oneSided
  | get _ => exact h.issue fun _ h => h.oneSided
  | app _ => exact h.issue fun _ h => h.app
  | coll _ => exact h.issue fun _ h => h.coll
  | collw _ => exact h.issue fun _ h => h.collw
  | collwTest _ => exact h.issue fun _ h => h.collw
  | sigw _ => exact h.issue fun _ h => h.sigw
  | tspawn _ => exact h.issue fun _ h => h.tspawn
  | tcommit _ => exact execTcommit_inv h
  | nemit _ => exact h.issue fun _ h => h.nemit
  | rdr _ => exact execRdr_inv h
  | trap _ => exact h.issue fun _ h => .trap
  | rttResume _ => exact h.issue fun _ h => .placed h.state.returnTrap.leave
  | rttRetry _ => exact h.issue fun _ h => .placed h.state.returnTrap.leave
  | rttEnd _ => exact h.issue fun _ h => .placed h.state.returnTrap
  | srd _ => exact h.issue fun _ h => h.fixed
  | swr _ => exact execSwr_inv h
  | bkpt _ => exact h.issue fun _ h => .trap
  | fwcallEcho _ => exact h.issue fun _ h => h.fwcall
  | fwcallFeatureVector _ => exact h.issue fun _ h => h.fwcall
  | fwcallLog _ => exact h.issue fun _ h => h.fwcall
  | fwcallNoService _ => exact h.issue fun _ h => h.fwcall
  | halt _ => exact h.issue fun _ h => .next h.state.endLaunch
  | illegalInstruction _ => exact State.raiseHere_inv h
  | fetchOutsideCode => exact State.raiseHere_inv h
  | resultWriteback _ => exact execResultWriteback_inv h
  | napExpiry _ => exact execNapExpiry_inv h
  | waddrTimeout _ => exact execWaddrTimeout_inv h
  | trapEntry _ => exact execTrapEntry_inv h
  | loadResponse _ => exact execLoadResponse_inv h
  | requestDispatch _ => exact execRequestDispatch_inv h
  | homeSliceRequest _ => exact execHomeSliceRequest_inv h
  | zunosPacket _ => exact execZunosPacket_inv h
  | putsigSignal _ => exact execPutsigSignal_inv h
  | appRowStore _ => exact execAppRowStore_inv h
  | remoteTimeout _ => exact execRemoteTimeout_inv h
  | matrixOperation _ => exact .next (h.engTurn fun _ => Eng.matrix_inv h)
  | leaseGrant _ => exact execLeaseGrant_inv h
  | muleCopy _ => exact .next (h.engTurn fun _ => Eng.copy_inv h)
  | bsliceOperation _ => exact .next (h.engTurn fun _ => Eng.bld_inv h)
  | msgOperation _ => exact .next (h.engTurn fun _ => Eng.msg_inv h)
  | bellwetherBeat _ _ => exact execBellwetherBeat_inv h
  | beatCrcError _ => exact execBeatCrcError_inv h
  | bellwetherChannelTest _ _ => exact execBellwetherChannelTest_inv h
  | layerSleep _ => exact .ite (.next h.modLayer) (.next h)
  | layerWake _ => exact execLayerWake_inv h
  | collectiveStart _ => exact .next (h.engTurn fun _ => Eng.coll_inv h)
  | collectivePacket _ => exact execCollectivePacket_inv h
  | collectiveReturn _ => exact execCollectiveReturn_inv h
  | collectiveComplete _ => exact execCollectiveComplete_inv h
  | collectiveTimeout _ => exact execCollectiveTimeout_inv h
  | combinationTimeout _ => exact execCombinationTimeout_inv h
  | amDelivery _ => exact execAmDelivery_inv h
  | henDeposit _ => exact execHenDeposit_inv h
  | henFlush _ _ => exact execHenFlush_inv h
  | nodeRecord _ => exact .next h.nextRecord
  | gatherTimerLapse _ => exact execGatherTimerLapse_inv h
  | taskStart _ => exact execTaskStart_inv h
  | taskCommit _ => exact execTaskCommit_inv h
  | teamDescend _ => exact execTeamDescend_inv h
  | teamAdmission _ => exact execTeamAdmission_inv h
  | teamSteal _ _ => exact execTeamSteal_inv h
  | teamEnd _ => exact execTeamEnd_inv h
  | launchComplete _ => exact execLaunchComplete_inv h
  | watchdogExpiry _ => exact execWatchdogExpiry_inv h
  | kick _ => exact execKick_inv h
  | launch _ => exact .next (h.take fun _ _ _ h => h.takeLaunch)
  | barrier _ => exact .next (h.take fun _ _ _ h => h.consumed)
  | signal _ => exact .next (h.take fun _ _ _ h => h.takeSignal)
  | wait _ => exact .next (h.take fun _ _ _ h => h.waitTest)
  | waitRecheck _ => exact execWaitRecheck_inv h
  | close _ => exact .next (h.take fun _ _ _ h => h.takeClose)
  | idleTimeout _ => exact execIdleTimeout_inv h
  | qcbSaveComplete _ => exact execQcbSaveComplete_inv h
  | eprioAgeing _ => exact execEprioAgeing_inv h
  | admissionWaitPreempt _ => exact execAdmissionWaitPreempt_inv h
  | preemptionStop _ => exact execPreemptionStop_inv h
  | restore _ => exact execRestore_inv h
  | clusterStageRelease _ => exact .next h.releaseStage.passFilters.openKeys
  | packageReset => exact execPackageReset_inv h
  | coolantFlow _ => exact .ite (.next h.modPkg) (.ite (.next h.modPkg.modPkg) (.next h.modPkg.modPkg))
  | thermalThrottle _ => exact .next h.modTower
  | thermalStop _ _ => exact .next h.modTower.stopTower.errorRecord
  | noiseSourceOffline _ => exact .next h.modCore
  | attest => exact .next (h.serveMail fun _ => h.attestFor)
  | accept => exact .next (h.serveMail fun _ => h.acceptFor)
  | pair => exact .next (h.serveMail fun _ => h.pairFor)
  | register => exact .next (h.serveMail fun _ => h.registerFor)
  | unregister => exact .next (h.serveMail fun _ => h.unregisterFor)
  | plimit => exact .next (h.serveMail fun _ => h.plimitFor)
  | preempt => exact .next (h.serveMail fun _ => h.preemptFor)
  | inval => exact .next (h.serveMail fun _ => h.invalFor)
  | aperture => exact .next (h.serveMail fun _ => h.apertureFor)
  | update => exact .next (h.serveMail fun _ => h.updateFor)
  | retire => exact .next (h.serveMail fun _ => h.retireFor)
  | mailboxUnknownCommand _ => exact .ite (.next h) (.next (h.serveMail fun _ => h.otherFor))
  | hostWindowWrite _ _ => exact .ite (.next h) (.ite (.next h.modMailbox) (.next h.modMailbox))
  | sliceRemapDrained => exact execSliceRemapDrained_inv h
  | inServiceChangeStart => exact execInServiceChangeStart_inv h
  | pciePostedWrite _ _ _ => exact .ite (.next h.modPkg) (.next h.performPosted.apertureWrite)
  | pcieRead _ _ => exact .next h.performPosted.apertureRead.giveHost
  | appCoreAccess _ => exact execAppCoreAccess_inv h
  | loopFlitError _ _ => exact .ite (.next h.retry) (.next h)
  | loopFail _ _ => exact .ite (.next h.modTower.linkRecord.setRetries) (.next h)
  | bridgeCrcError _ _ => exact .ite (.next h.retry) (.next h)
  | bridgeRetrain _ _ _ => exact execBridgeRetrain_inv h
  | zunosCrcError _ => exact .ite (.next (.ite h.retry.setPort h.retry)) (.next h)
  | portRetrain _ _ => exact .ite (.next h) (.ite (.next h.setPort.linkRecord.setRetries) (.ite (.next h.addChange) (.next h)))
  | portDead _ => exact .ite (.next h.setPort.linkRecord.setRetries) (.next h)
  | correctedError _ => exact .next h.corrected
  | patrolScrub _ _ => exact execPatrolScrub_inv h
  | uncorrectableError _ _ _ => exact .ite (.next h.uncorrectable) (.next h)
  | heartbeat => exact execHeartbeat_inv h
  | heartbeatTimeout => exact execHeartbeatTimeout_inv h
  | core0Failure => exact .next h.errorRecord.goFatal
  | standbyTakeover => exact execStandbyTakeover_inv h
  | thermalThrottleEnd _ => exact .next h.modTower

/-! ## The step -/

theorem State.Inv.runPath {f : Fibre} {ip : Nat} {i : Instr} (h : s.Inv) : NextInv (s.runPath f ip i) :=
  State.Inv.exec (h.of_mem rfl)

theorem State.Inv.uncursored (h : s.Inv) : NextInv (.next { s with cursor := none }) := .next (h.of_mem rfl)

/-- Path B performs on what path A left; a trap of path B that is found at issue is raised in the state before both (R411). -/
theorem State.Inv.thenB {before after : State} {core : Nat} {f : Fibre} {l : Launch} {b : PathB}
    (hb : before.Inv) (ha : after.Inv) : NextInv (before.thenB after core f l b) := by
  unfold State.thenB
  extract_lets done stamped held ta early
  refine .ite ha.uncursored ?_
  split
  · exact ha.uncursored
  · exact ha.raise.uncursored
  · exact ha.uncursored
  · refine NextInv.onNext ha.runPath fun s h => ?_
    split
    · exact h.uncursored
    · split
      · split
        · split
          · exact .ite h.uncursored hb.raise.uncursored
          · exact h.leave.uncursored
        · exact h.uncursored
      · exact .ite h.uncursored hb.raise.uncursored

theorem State.Inv.issuePaths {core : Nat} {f : Fibre} {l : Launch} {a : Nat} {wa : BitVec 160} {b : PathB} (h : s.Inv) :
    NextInv (s.issuePaths core f l a wa b) :=
  h.runPath.onNext fun _ h1 => h.thenB h1

/-- The fetch of path B, which an instruction that issues on path A only does not make. -/
theorem State.Inv.pathBUnless {alone : Prop} [Decidable alone] {core : Nat} {l : Launch} {k : Kernel} {wa : BitVec 160}
    {ips : List Nat} (h : s.Inv) : (if alone then (PathB.none, s) else s.pathB core l k wa ips).2.Inv := by
  split
  · exact h
  · exact h.pathB

theorem State.Inv.issueFibre {core : Nat} {f : Fibre} {t : Team} {l : Launch} (h : s.Inv) :
    NextInv (s.issueFibre core f t l) := by
  simp only [State.issueFibre]
  refine .ite (h.runPath.onNext fun _ h => h.uncursored) ?_
  split
  · rename_i e
    exact .next (h.fetch.after e).holdOn
  · rename_i e
    exact .next (h.fetch.after e).raise
  · rename_i e
    have fetched := h.fetch.after e
    split
    · exact .next fetched.pathBUnless.holdOn
    · split
      · rename_i e
        exact .next ((State.switchTest_inv fetched.pathBUnless).of_leave e)
      · rename_i e
        exact ((State.switchTest_inv fetched.pathBUnless).of_go e).issuePaths

theorem State.Inv.issueStep {core : Nat} (h : s.Inv) : NextInv (s.issueStep core) := by
  simp only [State.issueStep]
  split
  · exact .next h
  · split
    · exact .next h
    · split
      · exact .next h
      · exact h.issueFibre

theorem State.Inv.perform {m : Move} (h : s.Inv) : NextInv (s.perform m) := by
  cases m with
  | event i => exact h.exec
  | issue core => exact h.issueStep

theorem State.Inv.anyMove (h : s.Inv) : NextInv s.anyMove := by
  simp only [State.anyMove]
  split
  · exact h.perform
  · exact .next h.passCycle

/-- A step is one performed move or one event from the inbox, taken after the tick. -/
theorem State.Inv.step (h : s.Inv) : NextInv (step s) := by
  have ticked : State.Inv { s with tick := s.tick + 1 } := h.of_mem rfl
  simp only [Machine.step]
  split
  · exact State.Inv.perform (ticked.of_mem rfl)
  · split
    · exact State.Inv.exec (ticked.of_mem rfl)
    · exact ticked.anyMove

end Sys2Proof.Machine
end

section
open Sys2Proof.Machine

/-- Settles O8: nothing is listed in the memory of a device just reset. -/
theorem resetMemoryIsCanonical : Obligations.ResetMemoryIsCanonical := by
  unfold Obligations.ResetMemoryIsCanonical
  exact (rfl : Memory.wf [] = true)

/-- Settles O9: every instruction and every event keeps memory canonical, so every step does. -/
theorem everyStepKeepsMemoryCanonical : Obligations.EveryStepKeepsMemoryCanonical := by
  unfold Obligations.EveryStepKeepsMemoryCanonical
  intro s t h e
  have kept : NextInv (step s) := h.step
  rw [e] at kept
  cases kept
  assumption

end
